-- ==== Sys2Proof/Word.lean ====
section
/-! DEFINITION. The word types of 00_scope.md R11: u8, u32 and u64, all unsigned, arithmetic modulo their width. -/

namespace Sys2Proof

/-- One byte of a byte sequence (00_scope.md R12). -/
abbrev Byte := BitVec 8

/-- `u32`: a limb, a pad word, a register of the window (00_scope.md R8, R11). -/
abbrev Word := BitVec 32

/-- `u64`: a partial sum of the fold (00_scope.md R8, R11). -/
abbrev DWord := BitVec 64

end Sys2Proof
end

