-- ==== Sys2Proof/Config.lean ====
section
/-! DEFINITION. The fixed parameters of 00_scope.md R8 and R10, and the one parameter of the platform that the reset state
has to name. The spec leaves no value of an instruction open, so there is no free value here. -/

namespace Sys2Proof.Config

/-- Key length in bytes: "exactly 32 bytes" (00_scope.md R8). -/
def keyLen : Nat := 32

/-- Block length in bytes, and the most message bytes of one UPDATE (00_scope.md R8, 30_encoding.md R85). -/
def blockLen : Nat := 16

/-- The size in bytes of the register window (20_memory.md R50). -/
def windowSize : Nat := 256

/-- `M26` = 2^26 - 1 (00_scope.md R10). -/
def limbMask : Word := 0x3ffffff#32

/-- The full-block flag `1<<24`, or'ed into limb 4 of a full block (00_scope.md R8, 41_update.md R126). -/
def fullBlockFlag : Word := 0x1000000#32

/-- The field modulus p = 2^130 - 5 (00_scope.md R8, R10). -/
def fieldPrime : Nat := 2 ^ 130 - 5

/-- DESIGN CHOICE (log entry 1, unsafe for a claim about the reset state alone): the value of the platform's parameter BASE in
`State.reset`. BASE is open (00_scope.md R9), `State.base` carries it as data, and no statement rests on this number. -/
def resetBase : Nat := 0

end Sys2Proof.Config
end

