-- ==== Sys2Proof/Syntax.lean ====
section
/-! DEFINITION. The commands of the engine: one constructor per row of spec/opcode_table.json (30_encoding.md R84). -/

namespace Sys2Proof

/-- A command. `len` is the LEN operand, a byte count (30_encoding.md R81, R85); it is a Nat, and `Instr.wellFormed` says that it
fits the 8-bit field (log entry 14). RESET carries the LEN its word has, which it ignores (44_control.md R191), so that no bit of a word is lost. -/
inductive Instr where
  | nop
  | init (len : Nat)
  | update (len : Nat)
  | finish
  | verify
  | reset (len : Nat)
deriving DecidableEq, Repr

/-- The LEN operand of a command, 0 for the commands whose LEN must be 0 (30_encoding.md R85). -/
def Instr.len : Instr → Nat
  | .nop => 0
  | .init n => n
  | .update n => n
  | .finish => 0
  | .verify => 0
  | .reset n => n

end Sys2Proof
end

