-- ==== Sys2Proof/WellFormed.lean ====
section
/-! DEFINITION. Which commands have a word (30_encoding.md R80: LEN is 8 bits), and which of them an assembler accepts (R89). -/

namespace Sys2Proof

/-- A command has a word exactly when its LEN fits the 8-bit field (30_encoding.md R80, R81). INIT 31, UPDATE 17 and RESET 7 are
well formed: the engine decodes them and answers with an error of its own. -/
def Instr.wellFormed (i : Instr) : Bool :=
  match i with
  | .nop => true
  | .init n => n < 256
  | .update n => n < 256
  | .finish => true
  | .verify => true
  | .reset n => n < 256

/-- What an assembler accepts (30_encoding.md R89): "An assembler refuses n outside 0-255 for INIT, outside 0-16 for UPDATE, and
any operand on NOP, FINISH, VERIFY or RESET". -/
def Instr.assemblerAccepts (i : Instr) : Bool :=
  match i with
  | .nop => true
  | .init n => n ≤ 255
  | .update n => n ≤ 16
  | .finish => true
  | .verify => true
  | .reset n => n == 0

end Sys2Proof
end

