-- ==== Sys2Proof/Decode.lean ====
section
/-! DEFINITION. The command word of 30_encoding.md: its fields, the decoder (total, rejecting by name), the encoder and the
assembler. The decoder makes the checks of 60_exceptions.md R202 that look at the word alone and end in ILLEGAL_CMD (2, 3 and 5);
the checks that look at STATE, and those whose error has a code of its own, are in the commands' meanings (log entry 15). -/

namespace Sys2Proof

/-- `OP = w[7:0]` (30_encoding.md R80, R81). -/
def opField (w : Word) : Byte := w.extractLsb' 0 8

/-- `LEN = w[15:8]`, a byte count (30_encoding.md R80, R81). -/
def lenField (w : Word) : Nat := (w.extractLsb' 8 8).toNat

/-- `RSV = w[31:16]`, reserved, must be 0 (30_encoding.md R80, R81). -/
def rsvField (w : Word) : BitVec 16 := w.extractLsb' 16 16

/-- The opcode of a command (30_encoding.md R84). -/
def Instr.op : Instr → Byte
  | .nop => 0x00#8
  | .init _ => 0x01#8
  | .update _ => 0x02#8
  | .finish => 0x03#8
  | .verify => 0x04#8
  | .reset _ => 0x05#8

/-- Why a word is no command (30_encoding.md R86). Each of them raises ILLEGAL_CMD. -/
inductive DecodeError where
  /-- RSV is not 0. -/
  | reservedBits
  /-- OP is in 0x06-0xFF. -/
  | reservedOpcode
  /-- LEN is not 0 on NOP, FINISH or VERIFY. -/
  | lenOnNoOperand
deriving DecidableEq, Repr

/-- A command that takes no operand: its LEN must be 0 (30_encoding.md R85, R86). -/
def noOperand (len : Nat) (i : Instr) : Except DecodeError Instr :=
  if len = 0 then .ok i else .error .lenOnNoOperand

/-- The decoder, total on words (30_encoding.md R82, R84, R86; 60_exceptions.md R202 checks 2, 3 and 5). -/
def decode (w : Word) : Except DecodeError Instr :=
  if rsvField w ≠ 0#16 then .error .reservedBits
  else if opField w = 0x00#8 then noOperand (lenField w) .nop
  else if opField w = 0x01#8 then .ok (.init (lenField w))
  else if opField w = 0x02#8 then .ok (.update (lenField w))
  else if opField w = 0x03#8 then noOperand (lenField w) .finish
  else if opField w = 0x04#8 then noOperand (lenField w) .verify
  else if opField w = 0x05#8 then .ok (.reset (lenField w))
  else .error .reservedOpcode

/-- The word of a command: RSV = 0, LEN, OP from the high end (30_encoding.md R80, R89: `(len << 8) | OP`). -/
def encode (i : Instr) : Word := 0#16 ++ BitVec.ofNat 8 i.len ++ i.op

/-- The assembler of 30_encoding.md R89: the word, or no word for an operand it refuses. -/
def assemble (i : Instr) : Option Word := if i.assemblerAccepts then some (encode i) else none

/-- The instruction the decoder reads from an instruction whose bits are `w`, numbered as spec/opcode_table.json numbers them: the
one format is one 32-bit word, so bit k of the table is bit k of the word written to CMD (30_encoding.md R80, R82). -/
def decodeTableWord (nbits w : Nat) : Option Instr :=
  match decode (BitVec.ofNat 32 (w % 2 ^ nbits)) with
  | .ok i => some i
  | .error _ => none

end Sys2Proof
end

