-- ==== Sys2Proof/Machine/State.lean ====
section
/-! DEFINITION. The state of the machine: every piece of state 10_state.md gives the engine (R21, R24-R27, R31-R36), the platform's
parameter BASE, and the model's own three fields for the host's side of the bus. All of it is plain data. -/

namespace Sys2Proof.Machine

/-- `STATE`, the lifecycle register (10_state.md R21). -/
inductive Lifecycle where
  /-- 0: no key loaded since hardware reset. -/
  | idle
  /-- 1: a key is loaded and a message is being accumulated. -/
  | keyed
  /-- 2: the tag has been produced or checked; the engine is "consumed". -/
  | finished
  /-- 3: a misuse error was raised; the engine is dead until hardware reset. -/
  | fatal
deriving DecidableEq, Repr

/-- The values of `ERRINFO.ECODE` that are ever written (60_exceptions.md R200; codes 7-15 are "reserved, never written"). -/
inductive ErrorCode where
  | none
  | keySize
  | resetForbidden
  | notKeyed
  | consumed
  | illegalCmd
  | badLen
deriving DecidableEq, Repr

/-- Five 32-bit limbs of radix 2^26, limb 0 first (00_scope.md R8, R12). -/
structure Limbs where
  l0 : Word
  l1 : Word
  l2 : Word
  l3 : Word
  l4 : Word
deriving DecidableEq, Repr

/-- Five zero limbs. -/
def Limbs.zero : Limbs := ⟨0#32, 0#32, 0#32, 0#32, 0#32⟩

/-- A 16-byte block, byte 0 first (00_scope.md R8, R12). -/
abbrev Block := Vector Byte 16

/-- Sixteen zero bytes. -/
def Block.zero : Block := Vector.replicate 16 0#8

/-- Four 32-bit words: PAD, DIN, CAND, TAG (10_state.md R25, R34-R36). -/
abbrev Words4 := Vector Word 4

/-- Four zero words. -/
def Words4.zero : Words4 := Vector.replicate 4 0#32

/-- The registers of the window, by name; every other aligned offset is reserved (20_memory.md R50, R52). -/
inductive Reg where
  | cmd
  | status
  | errInfo
  | key (i : Fin 8)
  | din (i : Fin 4)
  | cand (i : Fin 4)
  | tag (i : Fin 4)
  | reserved
deriving DecidableEq, Repr

/-- What an access does: a read, or a write of a word (00_scope.md R13). -/
inductive AccessKind where
  | read
  | write (v : Word)
deriving DecidableEq, Repr

/-- One access on the host bus. `size` is in bytes; only 4 at a multiple of 4 is an access to a register (20_memory.md R53).
DESIGN CHOICE (log entry 2, safe): the width of a bus address and of an access is not in the spec, so both are naturals, and the
data of a write is the 32-bit word that the only effective write carries. -/
structure BusAccess where
  /-- which bus master makes the access (20_memory.md R66) -/
  master : Nat
  addr : Nat
  size : Nat
  kind : AccessKind
deriving DecidableEq, Repr

/-- What comes to the engine from outside: an access of a bus master (20_memory.md R59), the platform's hardware reset
(70_reset_and_hazards.md R230), or a power-down (60_exceptions.md R215). -/
inductive HostEvent where
  | access (a : BusAccess)
  | hardwareReset
  | powerDown
deriving DecidableEq, Repr

/-- The response to an access (20_memory.md R53, R55): whether it is a bus error, and for a read the data. -/
structure BusResponse where
  error : Bool
  data : Option Word
deriving DecidableEq, Repr

/-- The state of one engine and of the host's side of its bus. -/
structure State where
  /-- `STATE` (10_state.md R21) -/
  lifecycle : Lifecycle
  /-- `R[0..4]`, the clamped multiplier (10_state.md R24) -/
  r : Limbs
  /-- `PAD[0..3]` (10_state.md R25) -/
  pad : Words4
  /-- `H[0..4]`, the accumulator (10_state.md R26) -/
  h : Limbs
  /-- `BUF[0..15]`, the streaming buffer (10_state.md R27) -/
  buf : Block
  /-- `OFF`, the number of bytes of `buf` that are filled, 4 bits (10_state.md R27) -/
  off : BitVec 4
  /-- `KEY0`-`KEY7` (10_state.md R33) -/
  key : Vector Word 8
  /-- `DIN0`-`DIN3` (10_state.md R34) -/
  din : Words4
  /-- `CAND0`-`CAND3` (10_state.md R35) -/
  cand : Words4
  /-- `TAG0`-`TAG3` (10_state.md R36) -/
  tag : Words4
  /-- `STATUS.KEYERR` (10_state.md R31, R36) -/
  keyErr : Bool
  /-- `STATUS.TAGV` (10_state.md R31, R36) -/
  tagV : Bool
  /-- `STATUS.VDONE` (10_state.md R31, R36) -/
  vDone : Bool
  /-- `STATUS.MATCH` (10_state.md R31, R36) -/
  matched : Bool
  /-- `ERRINFO.ECODE` (10_state.md R32) -/
  eCode : ErrorCode
  /-- `ERRINFO.ELEN` (10_state.md R32) -/
  eLen : Byte
  /-- `ERRINFO.EOP` (10_state.md R32) -/
  eOp : Byte
  /-- `BASE`, the bus address of offset 0x00: a parameter of the platform carried as data (00_scope.md R9, 20_memory.md R50) -/
  base : Nat
  /-- the model's own: the coming events, oldest first (20_memory.md R59; log entry 3) -/
  pending : List HostEvent
  /-- the model's own: the response to the last access (20_memory.md R53, R55; log entry 4) -/
  response : Option BusResponse
  /-- the model's own: the bus master that drives this engine, once one has (20_memory.md R66; log entry 5) -/
  master : Option Nat
deriving DecidableEq, Repr

/-- Why the machine stops. No command raises one: the engine's errors are states of the engine (60_exceptions.md R203, R204). -/
inductive Fault where
  /-- Raised by the bus (`busAccess`) for an access whose address is not in BASE..BASE+0xFF: "The window is the only thing a
  program can address" (20_memory.md R51). Safe: the model stops where the platform would send the access elsewhere (log entry 6). -/
  | outsideWindow
deriving DecidableEq, Repr

/-- Why the model gives no next state. -/
inductive Refusal where
  /-- Raised by an arm of `exec` for a command that has no meaning yet; no arm does so. Safe. -/
  | notModelled (mnemonic : String)
  /-- Raised by the bus (`busAccess`) for an access by a second bus master: "A model admits only executions where one host drives
  the instance, and refuses any other" (20_memory.md R66). Safe (log entry 5). -/
  | secondMaster
deriving DecidableEq, Repr

/-- The machine right after hardware reset: every register of the engine at the value of 10_state.md R38. The last four fields are
no registers of the engine: BASE (log entry 1), nothing pending (log entry 3), no response (log entry 4), no master (log entry 5). -/
def State.reset : State where
  lifecycle := .idle
  r := Limbs.zero
  pad := Words4.zero
  h := Limbs.zero
  buf := Block.zero
  off := 0#4
  key := Vector.replicate 8 0#32
  din := Words4.zero
  cand := Words4.zero
  tag := Words4.zero
  keyErr := false
  tagV := false
  vDone := false
  matched := false
  eCode := .none
  eLen := 0#8
  eOp := 0#8
  base := Config.resetBase
  pending := []
  response := none
  master := none

end Sys2Proof.Machine
end

