-- ==== Sys2Proof/Machine/Operands.lean ====
section
/-! DEFINITION. The operand forms: byte lanes of the interface words (20_memory.md R56), little-endian words and values
(00_scope.md R12), and the message bytes an UPDATE takes (41_update.md R120). -/

namespace Sys2Proof.Machine

/-- Byte `k` of the sequence that a row of words holds: bits 8(k mod 4)+7 : 8(k mod 4) of word k/4 (20_memory.md R56). -/
def laneByte {n : Nat} (v : Vector Word n) (k : Nat) : Byte :=
  (v[k / 4]?.getD 0#32).extractLsb' (8 * (k % 4)) 8

/-- `le32`: the word of four bytes, the first in the low lane (00_scope.md R12). -/
def le32 (b0 b1 b2 b3 : Byte) : Word := b3 ++ b2 ++ b1 ++ b0

/-- The value of a byte sequence, byte 0 least significant; `le128` for 16 bytes (00_scope.md R12). -/
def leNat : List Byte → Nat
  | [] => 0
  | b :: bs => b.toNat + 2 ^ 8 * leNat bs

/-- The value of a row of words, word 0 least significant: that of the byte sequence they hold (00_scope.md R12, 20_memory.md R56). -/
def leWords : List Word → Nat
  | [] => 0
  | w :: ws => w.toNat + 2 ^ 32 * leWords ws

/-- The bytes of a 16-byte sequence held in four words, byte 0 first (20_memory.md R56, 42_finish.md R159). -/
def bytesOf (v : Words4) : List Byte := (List.range 16).map (laneByte v)

/-- The message bytes of `UPDATE n`: chunk bytes 0..n-1 of DIN; "DIN bytes n..15 are not read" (41_update.md R120, R121). -/
def chunk (n : Nat) (din : Words4) : List Byte := (bytesOf din).take n

end Sys2Proof.Machine
end

