-- ==== Sys2Proof/Machine/Field.lean ====
section
/-! DEFINITION. The datapath: clamping (40_init.md R104), the block fold (41_update.md R127-R130), and the stages of the tag
pipeline (42_finish.md R153-R158, 43_verify.md R181), each in the widths the spec states (00_scope.md R11). -/

namespace Sys2Proof.Machine

/-- `val(h)`: each limb weighted by its position, "even when it holds more than 26 bits" (00_scope.md R12). -/
def Limbs.val (h : Limbs) : Nat :=
  h.l0.toNat + 2 ^ 26 * h.l1.toNat + 2 ^ 52 * h.l2.toNat + 2 ^ 78 * h.l3.toNat + 2 ^ 104 * h.l4.toNat

/-- `lo32` (00_scope.md R11). -/
def lo32 (v : DWord) : Word := v.setWidth 32

/-- `a *64 b`: the full 64-bit product of two u32 values (00_scope.md R11). -/
def mul64 (a b : Word) : DWord := a.setWidth 64 * b.setWidth 64

/-- ClampLimbs (40_init.md R104). UNVERIFIED (log entry 10): the spec marks the masks of limbs 1-4 as general knowledge. -/
def clampLimbs (t0 t1 t2 t3 : Word) : Limbs where
  l0 := t0 &&& 0x3ffffff#32
  l1 := ((t0 >>> 26) ||| (t1 <<< 6)) &&& 0x3ffff03#32
  l2 := ((t1 >>> 20) ||| (t2 <<< 12)) &&& 0x3ffc0ff#32
  l3 := ((t2 >>> 14) ||| (t3 <<< 18)) &&& 0x3f03fff#32
  l4 := (t3 >>> 8) &&& 0x00fffff#32

/-- The limbs of four little-endian words, with `hibit` or'ed into limb 4 (41_update.md R127). -/
def limbsOfWords (t0 t1 t2 t3 hibit : Word) : Limbs where
  l0 := t0 &&& Config.limbMask
  l1 := ((t0 >>> 26) ||| (t1 <<< 6)) &&& Config.limbMask
  l2 := ((t1 >>> 20) ||| (t2 <<< 12)) &&& Config.limbMask
  l3 := ((t2 >>> 14) ||| (t3 <<< 18)) &&& Config.limbMask
  l4 := (t3 >>> 8) ||| hibit

/-- DecodeBlock (41_update.md R127). -/
def decodeBlock (b : Block) (hibit : Word) : Limbs :=
  limbsOfWords (le32 b[0] b[1] b[2] b[3]) (le32 b[4] b[5] b[6] b[7]) (le32 b[8] b[9] b[10] b[11])
    (le32 b[12] b[13] b[14] b[15]) hibit

/-- "add into the accumulator limb-wise" (41_update.md R130). -/
def addLimbs (h m : Limbs) : Limbs := ⟨h.l0 + m.l0, h.l1 + m.l1, h.l2 + m.l2, h.l3 + m.l3, h.l4 + m.l4⟩

/-- The five 64-bit partial sums of a fold (41_update.md R129). -/
structure Sums where
  d0 : DWord
  d1 : DWord
  d2 : DWord
  d3 : DWord
  d4 : DWord
deriving DecidableEq, Repr

/-- A helper term `s_j = r_j * 5`, in 32 bits (41_update.md R128; log entry 9: recomputed in each fold). -/
def times5 (x : Word) : Word := x * 5#32

/-- The partial sums d0..d4, written out as in 41_update.md R129. -/
def partialSums (a r : Limbs) : Sums where
  d0 := mul64 a.l0 r.l0 + mul64 a.l1 (times5 r.l4) + mul64 a.l2 (times5 r.l3) + mul64 a.l3 (times5 r.l2)
    + mul64 a.l4 (times5 r.l1)
  d1 := mul64 a.l0 r.l1 + mul64 a.l1 r.l0 + mul64 a.l2 (times5 r.l4) + mul64 a.l3 (times5 r.l3)
    + mul64 a.l4 (times5 r.l2)
  d2 := mul64 a.l0 r.l2 + mul64 a.l1 r.l1 + mul64 a.l2 r.l0 + mul64 a.l3 (times5 r.l4) + mul64 a.l4 (times5 r.l3)
  d3 := mul64 a.l0 r.l3 + mul64 a.l1 r.l2 + mul64 a.l2 r.l1 + mul64 a.l3 r.l0 + mul64 a.l4 (times5 r.l4)
  d4 := mul64 a.l0 r.l4 + mul64 a.l1 r.l3 + mul64 a.l2 r.l2 + mul64 a.l3 r.l1 + mul64 a.l4 r.l0

/-- Each partial sum with the carry of the one before it added: d0, d1 + c, ..., d4 + c, in 64 bits (41_update.md R130). -/
def carriedSums (d : Sums) : Sums :=
  let d1 := d.d1 + (d.d0 >>> 26)
  let d2 := d.d2 + (d1 >>> 26)
  let d3 := d.d3 + (d2 >>> 26)
  let d4 := d.d4 + (d3 >>> 26)
  ⟨d.d0, d1, d2, d3, d4⟩

/-- Limb 0 with the top excess wrapped in: `lo32(zext_64(o0) + c*5)` for the sums with their carries added (41_update.md R130). -/
def wrappedLimb0 (d : Sums) : Word :=
  lo32 ((lo32 d.d0 &&& Config.limbMask).setWidth 64 + (d.d4 >>> 26) * 5#64)

/-- The reduction of the partial sums to limbs: the carries, the wrap of the top excess times 5 into limb 0, and the re-carry from
limb 0 into limb 1 (41_update.md R130). -/
def reduceSums (d : Sums) : Limbs :=
  let e := carriedSums d
  let o0 := wrappedLimb0 e
  { l0 := o0 &&& Config.limbMask
    l1 := (lo32 e.d1 &&& Config.limbMask) + (o0 >>> 26)
    l2 := lo32 e.d2 &&& Config.limbMask
    l3 := lo32 e.d3 &&& Config.limbMask
    l4 := lo32 e.d4 &&& Config.limbMask }

/-- Fold: "h += block; h *= r; h %= p", the last a partial reduction (41_update.md R125, R130). -/
def fold (h r : Limbs) (b : Block) (hibit : Word) : Limbs :=
  reduceSums (partialSums (addLimbs h (decodeBlock b hibit)) r)

/-- FinalBlock: the filled bytes, one 0x01 byte, zeros (42_finish.md R153). -/
def finalBlock (buf : Block) (off : BitVec 4) : Block :=
  Vector.ofFn fun j : Fin 16 =>
    if j.val < off.toNat then buf[j.val] else if j.val = off.toNat then 0x01#8 else 0x00#8

/-- Carry: one pass from limb 0 to limb 4, the wrap times 5 into limb 0, one re-carry into limb 1, all in u32 (42_finish.md R154). -/
def carry (h : Limbs) : Limbs :=
  let h1 := h.l1 + (h.l0 >>> 26)
  let h2 := h.l2 + (h1 >>> 26)
  let h3 := h.l3 + (h2 >>> 26)
  let h4 := h.l4 + (h3 >>> 26)
  let h0 := (h.l0 &&& Config.limbMask) + (h4 >>> 26) * 5#32
  { l0 := h0 &&& Config.limbMask
    l1 := (h1 &&& Config.limbMask) + (h0 >>> 26)
    l2 := h2 &&& Config.limbMask
    l3 := h3 &&& Config.limbMask
    l4 := h4 &&& Config.limbMask }

/-- CondSub, first half: g = h + 5 - 2^130 in limbs; g4 wraps below 0 when h + 5 < 2^130 (42_finish.md R155). -/
def minusP (h : Limbs) : Limbs :=
  let g0 := h.l0 + 5#32
  let g1 := h.l1 + (g0 >>> 26)
  let g2 := h.l2 + (g1 >>> 26)
  let g3 := h.l3 + (g2 >>> 26)
  { l0 := g0 &&& Config.limbMask
    l1 := g1 &&& Config.limbMask
    l2 := g2 &&& Config.limbMask
    l3 := g3 &&& Config.limbMask
    l4 := h.l4 + (g3 >>> 26) - 0x4000000#32 }

/-- The select mask: all zeros when g4[31] = 1, all ones when g4[31] = 0 (42_finish.md R156). -/
def selectMask (g4 : Word) : Word := (g4 >>> 31) - 1#32

/-- `(x & ~mask) | (y & mask)`: both sides are computed, the mask selects (42_finish.md R156). -/
def select (mask x y : Word) : Word := (x &&& ~~~mask) ||| (y &&& mask)

/-- CondSub: h if h < p, else h - p, selected by mask without a branch (42_finish.md R155, R156; 90_conflicts.md C1). -/
def condSub (h : Limbs) : Limbs :=
  let g := minusP h
  let mask := selectMask g.l4
  ⟨select mask h.l0 g.l0, select mask h.l1 g.l1, select mask h.l2 g.l2, select mask h.l3 g.l3, select mask h.l4 g.l4⟩

/-- Pack: radix 2^26 to 2^32, the low 128 bits (42_finish.md R157). -/
def pack (h : Limbs) : Words4 :=
  #v[h.l0 ||| (h.l1 <<< 26), (h.l1 >>> 6) ||| (h.l2 <<< 20), (h.l2 >>> 12) ||| (h.l3 <<< 14), (h.l3 >>> 18) ||| (h.l4 <<< 8)]

/-- AddPad: 128-bit addition with 32-bit carries, the top carry discarded (42_finish.md R158). -/
def addPad (w pad : Words4) : Words4 :=
  let f0 : DWord := w[0].setWidth 64 + pad[0].setWidth 64
  let f1 : DWord := w[1].setWidth 64 + pad[1].setWidth 64 + (f0 >>> 32)
  let f2 : DWord := w[2].setWidth 64 + pad[2].setWidth 64 + (f1 >>> 32)
  let f3 : DWord := w[3].setWidth 64 + pad[3].setWidth 64 + (f2 >>> 32)
  #v[lo32 f0, lo32 f1, lo32 f2, lo32 f3]

/-- The accumulator with the padded final block folded in, when the buffer holds one (42_finish.md R150 step 1, R153). -/
def finalAccumulator (h r : Limbs) (buf : Block) (off : BitVec 4) : Limbs :=
  if off = 0#4 then h else fold h r (finalBlock buf off) 0#32

/-- TagOf: the four words of the tag (42_finish.md R150). -/
def tagOf (h r : Limbs) (pad : Words4) (buf : Block) (off : BitVec 4) : Words4 :=
  addPad (pack (condSub (carry (finalAccumulator h r buf off)))) pad

/-- CtEqual: 1 if all four words are equal, else 0, without an early exit (43_verify.md R181). -/
def ctEqual (t u : Words4) : Word :=
  let diff := 0#32 ||| (t[0] ^^^ u[0]) ||| (t[1] ^^^ u[1]) ||| (t[2] ^^^ u[2]) ||| (t[3] ^^^ u[3])
  let nz := (diff ||| (0#32 - diff)) >>> 31
  nz ^^^ 1#32

end Sys2Proof.Machine
end

