-- ==== Sys2Proof/Machine/Flags.lean ====
section
/-! DEFINITION. The STATUS and ERRINFO registers as words (10_state.md R31, R32), the numbers of their fields
(10_state.md R21, 60_exceptions.md R200), and the flag writes that commands share (10_state.md R36). -/

namespace Sys2Proof.Machine

/-- The number of a lifecycle state in STATUS[1:0] (10_state.md R21). -/
def Lifecycle.code : Lifecycle → BitVec 2
  | .idle => 0#2
  | .keyed => 1#2
  | .finished => 2#2
  | .fatal => 3#2

/-- The number of an error in ERRINFO[3:0] (60_exceptions.md R200). -/
def ErrorCode.code : ErrorCode → BitVec 4
  | .none => 0#4
  | .keySize => 1#4
  | .resetForbidden => 2#4
  | .notKeyed => 3#4
  | .consumed => 4#4
  | .illegalCmd => 5#4
  | .badLen => 6#4

/-- STATUS, from bit 31 down: reserved [31:12], OFFSET [11:8], reserved [7:6], MATCH, VDONE, TAGV, KEYERR, STATE [1:0]
(10_state.md R31). -/
def statusWord (s : State) : Word :=
  0#20 ++ s.off ++ 0#2 ++ BitVec.ofBool s.matched ++ BitVec.ofBool s.vDone ++ BitVec.ofBool s.tagV
    ++ BitVec.ofBool s.keyErr ++ s.lifecycle.code

/-- ERRINFO, from bit 31 down: reserved [31:24], EOP [23:16], ELEN [15:8], reserved [7:4], ECODE [3:0] (10_state.md R32). -/
def errInfoWord (s : State) : Word := 0#8 ++ s.eOp ++ s.eLen ++ 0#4 ++ s.eCode.code

/-- STATUS.KEYERR, TAGV, VDONE and MATCH to 0: INIT and FATAL entry (10_state.md R36). -/
def clearFlags (s : State) : State :=
  { s with keyErr := false, tagV := false, vDone := false, matched := false }

/-- The flags FINISH writes: TAGV 1, VDONE 0, MATCH 0; KEYERR is kept (42_finish.md R152). -/
def setTagValid (s : State) : State := { s with tagV := true, vDone := false, matched := false }

/-- The flags VERIFY writes: TAGV 0, VDONE 1, MATCH the verdict; KEYERR is kept (43_verify.md R180). -/
def setVerdict (eq : Bool) (s : State) : State := { s with tagV := false, vDone := true, matched := eq }

/-- ERRINFO to the given fields (10_state.md R32). -/
def setErrInfo (code : ErrorCode) (len op : Byte) (s : State) : State :=
  { s with eCode := code, eLen := len, eOp := op }

end Sys2Proof.Machine
end

