-- ==== Sys2Proof/Machine/Ops.lean ====
section
/-! DEFINITION. The operations the commands share: zeroization, the two error entries of 60_exceptions.md (R203, R204) and the
only way out of the fatal state (70_reset_and_hazards.md R230), the lifecycle checks of R202, and absorbing message bytes
(41_update.md R121). There is no return from an error: "There is no trap handler and no return instruction" (R209). -/

namespace Sys2Proof.Machine

/-- Zeroize the key-derived and message-derived registers R, H, PAD, BUF, OFF (42_finish.md R152, 43_verify.md R180,
60_exceptions.md R203). -/
def zeroize (s : State) : State :=
  { s with r := Limbs.zero, h := Limbs.zero, pad := Words4.zero, buf := Block.zero, off := 0#4 }

/-- The ELEN an error records: the LEN field for BAD_LEN (and for KEY_SIZE, R204), 0 for every other code (60_exceptions.md R200,
R203). -/
def recordedLen (code : ErrorCode) (len : Nat) : Byte :=
  match code with
  | .none => 0#8
  | .keySize => BitVec.ofNat 8 len
  | .resetForbidden => 0#8
  | .notKeyed => 0#8
  | .consumed => 0#8
  | .illegalCmd => 0#8
  | .badLen => BitVec.ofNat 8 len

/-- `raise Fatal(code)`, the fatal error entry, for a word with opcode `op` and length `len` (60_exceptions.md R203): R, H, PAD, BUF,
OFF, TAG, KEY and the flags to 0, ERRINFO to the code, STATE to FATAL. DIN and CAND keep their values. -/
def enterFatal (code : ErrorCode) (op : Byte) (len : Nat) (s : State) : State :=
  { setErrInfo code (recordedLen code len) op (clearFlags (zeroize s)) with
    tag := Words4.zero, key := Vector.replicate 8 0#32, lifecycle := .fatal }

/-- `raise KeySize(LEN)`, the recoverable refusal: KEYERR and ERRINFO, and nothing else (60_exceptions.md R204). -/
def refuseKeySize (len : Nat) (s : State) : State :=
  { setErrInfo .keySize (recordedLen .keySize len) 0x01#8 s with keyErr := true }

/-- Hardware reset: every register at the value of 10_state.md R38, in every state (70_reset_and_hazards.md R230). DESIGN CHOICE
(log entry 13): BASE is the platform's and the pending events are the host's, so both stay; no response is shown, no master is
remembered. -/
def hardwareReset (s : State) : State := { State.reset with base := s.base, pending := s.pending }

/-- R202 check 1: in FATAL a command is ignored, "no state change at all" (60_exceptions.md R205). -/
def unlessFatal (s : State) (k : State) : State :=
  match s.lifecycle with
  | .idle => k
  | .keyed => k
  | .finished => k
  | .fatal => s

/-- R202 checks 1, 7 and 8 for UPDATE, FINISH and VERIFY: ignored in FATAL, NOT_KEYED in IDLE, CONSUMED in FINISHED; `k` is the
state the command leaves in KEYED. -/
def whenKeyed (op : Byte) (s : State) (k : State) : State :=
  match s.lifecycle with
  | .idle => enterFatal .notKeyed op 0 s
  | .keyed => k
  | .finished => enterFatal .consumed op 0 s
  | .fatal => s

/-- One pass of UPDATE's loop: the byte goes to BUF[OFF], OFF advances, and at 16 the block is folded and OFF is 0 again
(41_update.md R121). The bytes from OFF on stay stale (log entry 8). -/
def absorbByte (s : State) (b : Byte) : State :=
  let buf := s.buf.set s.off.toNat b s.off.isLt
  if s.off = 15#4 then { s with buf := buf, off := 0#4, h := fold s.h s.r buf Config.fullBlockFlag }
  else { s with buf := buf, off := s.off + 1#4 }

/-- UPDATE's loop over the message bytes (41_update.md R121). -/
def absorb (s : State) (bytes : List Byte) : State := bytes.foldl absorbByte s

/-- TagOf of the registers a state holds (42_finish.md R150). -/
def State.tagWords (s : State) : Words4 := tagOf s.h s.r s.pad s.buf s.off

/-- A word that decodes to no command: ILLEGAL_CMD with EOP = w[7:0], ignored in FATAL (30_encoding.md R86, 60_exceptions.md R202). -/
def illegalWord (op : Byte) (s : State) : State := unlessFatal s (enterFatal .illegalCmd op 0 s)

end Sys2Proof.Machine
end

