-- ==== Sys2Proof/Machine/Control.lean ====
section
/-! DEFINITION. NOP and the forbidden RESET (44_control.md R190, R191). -/

namespace Sys2Proof.Machine

/-- NOP: "(no state change)", in every lifecycle state (44_control.md R190). -/
def execNop (s : State) : Host.Outcome State Fault Refusal := .next s

/-- RESET: always RESET_FORBIDDEN, with ELEN 0 whatever its LEN; ignored in FATAL (44_control.md R191). -/
def execReset (len : Nat) (s : State) : Host.Outcome State Fault Refusal :=
  .next (unlessFatal s (enterFatal .resetForbidden 0x05#8 len s))

end Sys2Proof.Machine
end

