-- ==== Sys2Proof/Machine/Finish.lean ====
section
/-! DEFINITION. FINISH: produce the tag and consume the engine (42_finish.md R150-R161). -/

namespace Sys2Proof.Machine

/-- FINISH in KEYED (42_finish.md R152): the tag to TAG, zeroize, TAGV, FINISHED. ERRINFO and KEYERR are unchanged. -/
def finishMessage (s : State) : State :=
  { setTagValid (zeroize s) with tag := s.tagWords, lifecycle := .finished }

/-- FINISH (42_finish.md R151): legal in KEYED only. -/
def execFinish (s : State) : Host.Outcome State Fault Refusal :=
  .next (whenKeyed 0x03#8 s (finishMessage s))

end Sys2Proof.Machine
end

