-- ==== Sys2Proof/Machine/Init.lean ====
section
/-! DEFINITION. INIT: key intake and clamping (40_init.md R100-R106). -/

namespace Sys2Proof.Machine

/-- INIT's success path (40_init.md R103): R and PAD from KEY, everything of the old message and the raw key to 0, KEYED. -/
def loadKey (s : State) : State :=
  { setErrInfo .none 0#8 0#8 (clearFlags s) with
    r := clampLimbs s.key[0] s.key[1] s.key[2] s.key[3]
    pad := #v[s.key[4], s.key[5], s.key[6], s.key[7]]
    h := Limbs.zero
    buf := Block.zero
    off := 0#4
    tag := Words4.zero
    key := Vector.replicate 8 0#32
    lifecycle := .keyed }

/-- INIT (40_init.md R101): ignored in FATAL; LEN other than 32 is refused with KEY_SIZE "before any arithmetic" (R102); else R103. -/
def execInit (len : Nat) (s : State) : Host.Outcome State Fault Refusal :=
  .next (unlessFatal s (if len = Config.keyLen then loadKey s else refuseKeySize len s))

end Sys2Proof.Machine
end

