-- ==== Sys2Proof/Machine/Update.lean ====
section
/-! DEFINITION. UPDATE: feed 0 to 16 message bytes (41_update.md R120-R123). -/

namespace Sys2Proof.Machine

/-- UPDATE (41_update.md R120, R121): ignored in FATAL; LEN above 16 is BAD_LEN whatever the lifecycle state (60_exceptions.md R202
check 6 before 7 and 8); NOT_KEYED in IDLE, CONSUMED in FINISHED; in KEYED it absorbs the chunk. -/
def execUpdate (len : Nat) (s : State) : Host.Outcome State Fault Refusal :=
  .next (unlessFatal s
    (if Config.blockLen < len then enterFatal .badLen 0x02#8 len s
     else whenKeyed 0x02#8 s (absorb s (chunk len s.din))))

end Sys2Proof.Machine
end

