-- ==== Sys2Proof/Machine/Verify.lean ====
section
/-! DEFINITION. VERIFY: compute the tag and compare it with the candidate (43_verify.md R180-R183). -/

namespace Sys2Proof.Machine

/-- VERIFY in KEYED (43_verify.md R180): MATCH from CtEqual, TAG to 0 ("the computed tag is not exposed"), zeroize, FINISHED. -/
def verifyMessage (s : State) : State :=
  { setVerdict ((ctEqual s.tagWords s.cand).getLsbD 0) (zeroize s) with tag := Words4.zero, lifecycle := .finished }

/-- VERIFY (43_verify.md R180): legal in KEYED only. -/
def execVerify (s : State) : Host.Outcome State Fault Refusal :=
  .next (whenKeyed 0x04#8 s (verifyMessage s))

end Sys2Proof.Machine
end

