-- ==== Sys2Proof/Machine/Dispatch.lean ====
section
/-! DEFINITION. Which meaning each command has (30_encoding.md R84, 60_exceptions.md R202 step 10). -/

namespace Sys2Proof.Machine

def exec (i : Instr) (s : State) : Host.Outcome State Fault Refusal :=
  match i with
  | .nop => Sys2Proof.Machine.execNop s
  | .init len => Sys2Proof.Machine.execInit len s
  | .update len => Sys2Proof.Machine.execUpdate len s
  | .finish => Sys2Proof.Machine.execFinish s
  | .verify => Sys2Proof.Machine.execVerify s
  | .reset len => Sys2Proof.Machine.execReset len s

end Sys2Proof.Machine
end

