-- ==== Sys2Proof/Machine/Bus.lean ====
section
/-! DEFINITION. The register window on the host bus (20_memory.md R50-R66): which register an offset names, reads, writes, a write
to CMD, whole accesses, and the events a step performs. -/

namespace Sys2Proof.Machine

/-- The register at an aligned offset of the window (20_memory.md R50); offsets 0x0C and 0x60-0xFC are reserved (R52). -/
def regAt (o : Nat) : Reg :=
  if o = 0x00 then .cmd
  else if o = 0x04 then .status
  else if o = 0x08 then .errInfo
  else if o < 0x10 then .reserved
  else if o < 0x30 then .key (Fin.ofNat 8 ((o - 0x10) / 4))
  else if o < 0x40 then .din (Fin.ofNat 4 ((o - 0x30) / 4))
  else if o < 0x50 then .cand (Fin.ofNat 4 ((o - 0x40) / 4))
  else if o < 0x60 then .tag (Fin.ofNat 4 ((o - 0x50) / 4))
  else .reserved

/-- What a read of a register gives (20_memory.md R52, R55; 10_state.md R30-R36): CMD and KEY are write-only and read 0, reserved
offsets read 0. -/
def readReg (q : Reg) (s : State) : Word :=
  match q with
  | .cmd => 0#32
  | .status => statusWord s
  | .errInfo => errInfoWord s
  | .key _ => 0#32
  | .din i => s.din[i]
  | .cand i => s.cand[i]
  | .tag i => s.tag[i]
  | .reserved => 0#32

/-- A write to CMD issues the command the word encodes, at once and whole (10_state.md R30, 20_memory.md R63); a word that encodes
none is ILLEGAL_CMD (30_encoding.md R86). -/
def issueCommand (w : Word) (s : State) : Host.Outcome State Fault Refusal :=
  match decode w with
  | .ok i => exec i s
  | .error _ => .next (illegalWord (opField w) s)

/-- What a write to a register does (20_memory.md R52, R55): KEY, DIN and CAND store the word, CMD issues a command, and writes to
STATUS, ERRINFO, TAG and reserved offsets are ignored. -/
def writeReg (q : Reg) (v : Word) (s : State) : Host.Outcome State Fault Refusal :=
  match q with
  | .cmd => issueCommand v s
  | .status => .next s
  | .errInfo => .next s
  | .key i => .next { s with key := s.key.set i v }
  | .din i => .next { s with din := s.din.set i v }
  | .cand i => .next { s with cand := s.cand.set i v }
  | .tag _ => .next s
  | .reserved => .next s

/-- The offset of a bus address in the window BASE..BASE+0xFF, if it is in it (20_memory.md R50, R51). DESIGN CHOICE (log entry 7): an
access is in the window when its first byte is. -/
def windowOffset (base addr : Nat) : Option Nat :=
  if base ≤ addr ∧ addr < base + Config.windowSize then some (addr - base) else none

/-- Whether an access has the one form a register answers: 32 bits at an offset that is a multiple of 4 (20_memory.md R53). -/
def properAccess (o size : Nat) : Bool := size == 4 && o % 4 == 0

/-- Whether a bus master may go on driving this engine: none has driven it yet, or this one has (20_memory.md R66; log entry 5). -/
def admits (s : State) (m : Nat) : Bool :=
  match s.master with
  | none => true
  | some m' => m == m'

/-- The response to an access that is no 32-bit aligned access: a bus error, and a read returns 0 (20_memory.md R53). -/
def busError (k : AccessKind) : BusResponse :=
  match k with
  | .read => ⟨true, some 0#32⟩
  | .write _ => ⟨true, none⟩

/-- One access to the window, performed whole (20_memory.md R53-R55, R59, R63). The response is part of the access, so it is in
place in the state a command leaves. -/
def windowAccess (o : Nat) (a : BusAccess) (s : State) : Host.Outcome State Fault Refusal :=
  if properAccess o a.size then
    match a.kind with
    | .read => .next { s with response := some ⟨false, some (readReg (regAt o) s)⟩ }
    | .write v => writeReg (regAt o) v { s with response := some ⟨false, none⟩ }
  else .next { s with response := some (busError a.kind) }

/-- One access on the bus: outside the window the machine stops (log entry 6); an access of a second master is refused
(20_memory.md R66); else the master is remembered and the window answers. -/
def busAccess (a : BusAccess) (s : State) : Host.Outcome State Fault Refusal :=
  match windowOffset s.base a.addr with
  | none => .fault .outsideWindow
  | some o =>
    if admits s a.master then windowAccess o a { s with master := some a.master } else .refused .secondMaster

/-- One event from outside: an access, hardware reset (70_reset_and_hazards.md R230), or a power-down, which "a model treats … as a
hardware reset" (60_exceptions.md R215; log entry 12). -/
def performEvent (e : HostEvent) (s : State) : Host.Outcome State Fault Refusal :=
  match e with
  | .access a => busAccess a s
  | .hardwareReset => .next (hardwareReset s)
  | .powerDown => .next (hardwareReset s)

/-- One step: the oldest pending event, taken off the queue and performed; with nothing pending the engine is idle and "every state
survives idleness unchanged" (20_memory.md R59, 60_exceptions.md R215). -/
def stepPending (s : State) : Host.Outcome State Fault Refusal :=
  match s.pending with
  | [] => .next s
  | e :: rest => performEvent e { s with pending := rest }

/-- The bus access by which the host issues a command word (20_memory.md R50, R63): a 32-bit write of `w` to CMD, made by the master
that drives the engine, or by master 0 where none has yet. -/
def commandWrite (s : State) (w : Word) : BusAccess where
  master := s.master.getD 0
  addr := s.base
  size := 4
  kind := .write w

end Sys2Proof.Machine
end

