-- ==== Sys2Proof/Machine/Step.lean ====
section
/-! DEFINITION. The step of the machine, and where it takes its next command word from: the host's queue of pending events, since
the engine has no program counter and fetches nothing (10_state.md R22; log entry 3). -/

namespace Sys2Proof.Machine

/-- One step: one event from outside, performed whole (20_memory.md R59, R63). It takes no time (log entry 11). -/
def step (s : State) : Host.Outcome State Fault Refusal := stepPending s

/-- `s` with the command word of bits `w` as the host's next action: a write of it to CMD before everything already pending. -/
def State.withFetchWord (s : State) (nbits w : Nat) : State :=
  { s with pending := .access (commandWrite s (BitVec.ofNat 32 (w % 2 ^ nbits))) :: s.pending }

end Sys2Proof.Machine
end

