-- ==== Sys2Proof/Machine/DocumentUpdate.lean ====
section
/-! DEFINITION. The source document's own three steps of an update, for a chunk of any length, as 41_update.md R122 quotes them. The
machine does not use it: a statement says that it agrees with the byte loop of R121, which the machine runs. -/

namespace Sys2Proof.Machine

/-- A block with some bytes copied in from position `start` on. -/
def copyInto (buf : Block) (start : Nat) (bytes : List Byte) : Block :=
  Vector.ofFn fun j : Fin 16 =>
    if start ≤ j.val ∧ j.val < start + bytes.length then bytes[j.val - start]?.getD 0#8 else buf[j.val]

/-- Step 1: "If the internal buffer already holds a partial block (offset > 0), copy enough of the new bytes to complete it to 16
bytes; if that completes the buffer, fold it into the accumulator … and reset the offset; advance the input" (41_update.md R122). -/
def completeBuffer (s : State) (m : List Byte) : State × List Byte :=
  if s.off = 0#4 then (s, m)
  else
    let need := 16 - s.off.toNat
    let buf := copyInto s.buf s.off.toNat (m.take need)
    if need ≤ m.length then
      ({ s with buf := buf, off := 0#4, h := fold s.h s.r buf Config.fullBlockFlag }, m.drop need)
    else ({ s with buf := buf, off := s.off + BitVec.ofNat 4 m.length }, [])

/-- Step 2: "While at least 16 bytes of unconsumed input remain, fold each full 16-byte block directly from the input … without going
through the buffer" (41_update.md R122). The number bounds the recursion; the input's length is enough. -/
def foldDirect (fuel : Nat) (h r : Limbs) (m : List Byte) : Limbs × List Byte :=
  match fuel with
  | 0 => (h, m)
  | n + 1 =>
    if m.length < 16 then (h, m)
    else foldDirect n (fold h r (copyInto Block.zero 0 (m.take 16)) Config.fullBlockFlag) r (m.drop 16)

/-- The three steps; the last: "Copy any remaining < 16 bytes into the buffer and advance the offset" (41_update.md R122). -/
def documentUpdate (s : State) (m : List Byte) : State :=
  let s1 := (completeBuffer s m).1
  let p := foldDirect m.length s1.h s1.r (completeBuffer s m).2
  { s1 with h := p.1, buf := copyInto s1.buf s1.off.toNat p.2, off := s1.off + BitVec.ofNat 4 p.2.length }

end Sys2Proof.Machine
end

