-- ==== Sys2Proof/Machine/HostProgram.lean ====
section
/-! DEFINITION. The host's side of the bus: the bus syntax of 30_encoding.md R90 and the pseudo-instructions of R91, each as the list
of events the host makes. A run of the machine puts such a list into `State.pending`. -/

namespace Sys2Proof.Machine.Program

/-- The offset of a register in the window (20_memory.md R50). The reserved offset named here is 0x0C. -/
def offset (q : Reg) : Nat :=
  match q with
  | .cmd => 0x00
  | .status => 0x04
  | .errInfo => 0x08
  | .reserved => 0x0C
  | .key i => 0x10 + 4 * i
  | .din i => 0x30 + 4 * i
  | .cand i => 0x40 + 4 * i
  | .tag i => 0x50 + 4 * i

/-- `WR REG, v` by bus master `m`: MemWrite(BASE + offset(REG), 4, v) (30_encoding.md R90). -/
def wr (m base : Nat) (q : Reg) (v : Word) : HostEvent := .access ⟨m, base + offset q, 4, .write v⟩

/-- `RD REG`: MemRead(BASE + offset(REG), 4) (30_encoding.md R90). -/
def rd (m base : Nat) (q : Reg) : HostEvent := .access ⟨m, base + offset q, 4, .read⟩

/-- A command mnemonic on its own line: `WR CMD, word` (30_encoding.md R90). -/
def cmd (m base : Nat) (i : Instr) : HostEvent := wr m base .cmd (encode i)

/-- `le32(B, j)` of a byte sequence, with the zeros that FEED puts after its end (30_encoding.md R91). -/
def wordAt (bytes : List Byte) (j : Nat) : Word :=
  le32 (bytes[j]?.getD 0#8) (bytes[j + 1]?.getD 0#8) (bytes[j + 2]?.getD 0#8) (bytes[j + 3]?.getD 0#8)

/-- Four words of a byte sequence: `le32(c ++ zeros(16-|c|), 4i)` for i = 0..3 (30_encoding.md R91). -/
def packChunk (c : List Byte) : Words4 := #v[wordAt c 0, wordAt c 4, wordAt c 8, wordAt c 12]

/-- `LOADKEY k` (30_encoding.md R91). -/
def loadKey (m base : Nat) (k : Vector Byte 32) : List HostEvent :=
  (List.finRange 8).map fun i => wr m base (.key i) (wordAt k.toList (4 * i))

/-- The chunks of FEED: 16 bytes each, the last perhaps shorter; an empty message gives none (30_encoding.md R91). The first argument
bounds the recursion; the message's length is enough. -/
def chunksOf (fuel : Nat) (msg : List Byte) : List (List Byte) :=
  match fuel, msg with
  | 0, _ => []
  | _ + 1, [] => []
  | n + 1, b :: bs => (b :: bs).take 16 :: chunksOf n ((b :: bs).drop 16)

/-- One chunk of FEED: the four DIN words, then `UPDATE |c|` (30_encoding.md R91). -/
def feedChunk (m base : Nat) (c : List Byte) : List HostEvent :=
  (List.finRange 4).map (fun i => wr m base (.din i) (packChunk c)[i]) ++ [cmd m base (.update c.length)]

/-- `FEED m` (30_encoding.md R91). -/
def feed (m base : Nat) (msg : List Byte) : List HostEvent :=
  ((chunksOf msg.length msg).map (feedChunk m base)).flatten

/-- `LOADCAND t` (30_encoding.md R91). -/
def loadCand (m base : Nat) (t : Block) : List HostEvent :=
  (List.finRange 4).map fun i => wr m base (.cand i) (wordAt t.toList (4 * i))

/-- `MAC k, m` (30_encoding.md R91). -/
def mac (m base : Nat) (k : Vector Byte 32) (msg : List Byte) : List HostEvent :=
  loadKey m base k ++ [cmd m base (.init 32)] ++ feed m base msg ++ [cmd m base .finish]
    ++ (List.finRange 4).map fun i => rd m base (.tag i)

/-- `CHECK t, m, k`, the document's standalone Verify (30_encoding.md R91, 43_verify.md R182): the verdict is STATUS.MATCH. -/
def check (m base : Nat) (t : Block) (msg : List Byte) (k : Vector Byte 32) : List HostEvent :=
  loadKey m base k ++ [cmd m base (.init 32)] ++ feed m base msg ++ loadCand m base t
    ++ [cmd m base .verify, rd m base .status]

end Sys2Proof.Machine.Program
end

