-- ==== Sys2Proof/Machine/Platform.lean ====
section
/-! DEFINITION. A platform with several engines (60_exceptions.md R212; N_INST of 00_scope.md R9 is the length of the list). Each has
its own window at its own BASE and its own state, and they share nothing (log entry 16). -/

namespace Sys2Proof.Machine

/-- The engines of a platform, N_INST of them, each with its own BASE and its own host (60_exceptions.md R212). -/
structure Platform where
  engines : List State
deriving DecidableEq, Repr

/-- Whether an engine's window holds a bus address (20_memory.md R50). -/
def State.owns (s : State) (addr : Nat) : Bool := (windowOffset s.base addr).isSome

/-- A bus access goes to the engines whose window holds its address, at the end of what is already pending there
(20_memory.md R59, R65: no offset is shared with another engine). -/
def Platform.deliver (p : Platform) (a : BusAccess) : Platform :=
  ⟨p.engines.map fun s => if s.owns a.addr then { s with pending := s.pending ++ [.access a] } else s⟩

/-- One engine of the platform makes one step; which one is the platform's business, since the engines "may run fully in parallel
with no shared mutable state" (60_exceptions.md R212). There is no such engine: nothing happens. -/
def Platform.stepEngine (k : Nat) (p : Platform) : Host.Outcome Platform Fault Refusal :=
  match p.engines[k]? with
  | none => .next p
  | some s =>
    match step s with
    | .next t => .next ⟨p.engines.set k t⟩
    | .fault f => .fault f
    | .refused q => .refused q

end Sys2Proof.Machine
end

