-- ==== Sys2Proof/Machine/Priority.lean ====
section
/-! DEFINITION. The ordered checks of 60_exceptions.md R202 written literally, as the spec's own classification of a word
(30_encoding.md R88). The machine does not use it: the machine decodes and then executes, and a statement says that the two agree. -/

namespace Sys2Proof.Machine

/-- "Every word maps to exactly one of" these (30_encoding.md R88). -/
inductive WordOutcome where
  | ignored
  | illegalCmd
  | resetForbidden
  | badLen
  | notKeyed
  | consumed
  | keySize
  | nop
  | init
  | update
  | finish
  | verify
deriving DecidableEq, Repr

/-- Whether a word's opcode is one of the three that need a key and an open message: UPDATE, FINISH, VERIFY. -/
def usesMessage (w : Word) : Bool := opField w == 0x02#8 || opField w == 0x03#8 || opField w == 0x04#8

/-- Whether a word's opcode is one of the three whose LEN must be 0: NOP, FINISH, VERIFY. -/
def takesNoLen (w : Word) : Bool := opField w == 0x00#8 || opField w == 0x03#8 || opField w == 0x04#8

/-- The checks 1 to 10 of 60_exceptions.md R202, in their order. -/
def wordOutcome (w : Word) (st : Lifecycle) : WordOutcome :=
  if st = .fatal then .ignored
  else if rsvField w ≠ 0#16 then .illegalCmd
  else if 0x06#8 ≤ opField w then .illegalCmd
  else if opField w = 0x05#8 then .resetForbidden
  else if takesNoLen w ∧ lenField w ≠ 0 then .illegalCmd
  else if opField w = 0x02#8 ∧ 16 < lenField w then .badLen
  else if usesMessage w ∧ st = .idle then .notKeyed
  else if usesMessage w ∧ st = .finished then .consumed
  else if opField w = 0x01#8 ∧ lenField w ≠ 32 then .keySize
  else if opField w = 0x00#8 then .nop
  else if opField w = 0x01#8 then .init
  else if opField w = 0x02#8 then .update
  else if opField w = 0x03#8 then .finish
  else .verify

/-- What each outcome does to the state: the error entries of 60_exceptions.md R203 and R204, or the command's own rule. -/
def applyOutcome (o : WordOutcome) (w : Word) (s : State) : State :=
  match o with
  | .ignored => s
  | .illegalCmd => enterFatal .illegalCmd (opField w) (lenField w) s
  | .resetForbidden => enterFatal .resetForbidden (opField w) (lenField w) s
  | .badLen => enterFatal .badLen (opField w) (lenField w) s
  | .notKeyed => enterFatal .notKeyed (opField w) (lenField w) s
  | .consumed => enterFatal .consumed (opField w) (lenField w) s
  | .keySize => refuseKeySize (lenField w) s
  | .nop => s
  | .init => loadKey s
  | .update => absorb s (chunk (lenField w) s.din)
  | .finish => finishMessage s
  | .verify => verifyMessage s

end Sys2Proof.Machine
end

