-- ==== Sys2Proof/Safety.lean ====
section
/-! DEFINITION. The terms the statements are made in: the bounds and the invariant of the machine, what the host can see of a state,
and which registers a state has in common with another. -/

namespace Sys2Proof.Machine

/-- INV, the accumulator invariant (10_state.md R28): H[0], H[2], H[3], H[4] < 2^26 and H[1] <= 0x4000025. -/
def Limbs.accBounded (h : Limbs) : Prop :=
  h.l0.toNat < 2 ^ 26 ∧ h.l1.toNat ≤ 0x4000025 ∧ h.l2.toNat < 2 ^ 26 ∧ h.l3.toNat < 2 ^ 26 ∧ h.l4.toNat < 2 ^ 26

/-- The bounds of a clamped multiplier (40_init.md R106). -/
def Limbs.clamped (r : Limbs) : Prop :=
  r.l0.toNat ≤ 0x3ffffff ∧ r.l1.toNat ≤ 0x3ffff03 ∧ r.l2.toNat ≤ 0x3ffc0ff ∧ r.l3.toNat ≤ 0x3f03fff ∧
    r.l4.toNat ≤ 0x00fffff

/-- A canonical limb vector: every limb below 2^26 (00_scope.md R15). -/
def Limbs.canonical (h : Limbs) : Prop :=
  h.l0.toNat < 2 ^ 26 ∧ h.l1.toNat < 2 ^ 26 ∧ h.l2.toNat < 2 ^ 26 ∧ h.l3.toNat < 2 ^ 26 ∧ h.l4.toNat < 2 ^ 26

/-- No key-derived or message-derived value is held: R, H, PAD, BUF and OFF are 0. -/
def State.blank (s : State) : Prop :=
  s.r = Limbs.zero ∧ s.h = Limbs.zero ∧ s.pad = Words4.zero ∧ s.buf = Block.zero ∧ s.off = 0#4

/-- ERRINFO is as the table of 60_exceptions.md R200 says: which ELEN and EOP go with which code. -/
def State.errInfoLegal (s : State) : Prop :=
  match s.eCode with
  | .none => s.eLen = 0#8 ∧ s.eOp = 0#8
  | .keySize => s.eLen ≠ 32#8 ∧ s.eOp = 0x01#8
  | .resetForbidden => s.eLen = 0#8 ∧ s.eOp = 0x05#8
  | .notKeyed => s.eLen = 0#8 ∧ (s.eOp = 0x02#8 ∨ s.eOp = 0x03#8 ∨ s.eOp = 0x04#8)
  | .consumed => s.eLen = 0#8 ∧ (s.eOp = 0x02#8 ∨ s.eOp = 0x03#8 ∨ s.eOp = 0x04#8)
  | .illegalCmd => s.eLen = 0#8
  | .badLen => 16 < s.eLen.toNat ∧ s.eOp = 0x02#8

/-- What each lifecycle state says of the other registers: outside KEYED nothing of a key or message is held, the result flags are
up in FINISHED only, exactly one of them there, and FATAL has its error code and no flag. -/
def State.lifecycleLegal (s : State) : Prop :=
  match s.lifecycle with
  | .idle => s.blank ∧ s.tagV = false ∧ s.vDone = false ∧ s.keyErr = (s.eCode == .keySize) ∧
      (s.eCode = .none ∨ s.eCode = .keySize)
  | .keyed => s.tagV = false ∧ s.vDone = false ∧ s.keyErr = (s.eCode == .keySize) ∧
      (s.eCode = .none ∨ s.eCode = .keySize)
  | .finished => s.blank ∧ s.tagV = !s.vDone ∧ s.keyErr = (s.eCode == .keySize) ∧
      (s.eCode = .none ∨ s.eCode = .keySize)
  | .fatal => s.blank ∧ s.tagV = false ∧ s.vDone = false ∧ s.keyErr = false ∧ s.eCode ≠ .none ∧ s.eCode ≠ .keySize

/-- The invariant of the machine: the accumulator and multiplier bounds, the lifecycle's promises, ERRINFO's table, a tag only while
TAGV says so, a verdict only while VDONE says so, and BASE a multiple of 256. -/
structure State.Inv (s : State) : Prop where
  accBounded : s.h.accBounded
  clamped : s.r.clamped
  lifecycleLegal : s.lifecycleLegal
  errInfoLegal : s.errInfoLegal
  tagOnlyWhenValid : s.tagV = false → s.tag = Words4.zero
  matchOnlyWhenDone : s.vDone = false → s.matched = false
  baseAligned : s.base % 256 = 0

/-- Two states that no read of the window can tell apart: the same STATUS and ERRINFO fields, DIN, CAND and TAG. Nothing is said of
KEY, R, PAD, H and BUF (10_state.md R33, R37). -/
def State.sameToHost (s t : State) : Prop :=
  s.lifecycle = t.lifecycle ∧ s.off = t.off ∧ s.keyErr = t.keyErr ∧ s.tagV = t.tagV ∧ s.vDone = t.vDone ∧
    s.matched = t.matched ∧ s.eCode = t.eCode ∧ s.eLen = t.eLen ∧ s.eOp = t.eOp ∧ s.din = t.din ∧ s.cand = t.cand ∧
    s.tag = t.tag

/-- The fields that are not the engine's own: BASE and the host's side of the bus. -/
def State.samePort (s t : State) : Prop :=
  s.base = t.base ∧ s.pending = t.pending ∧ s.response = t.response ∧ s.master = t.master

/-- The fields that hold a message in progress: R, PAD, H, OFF, the filled bytes of BUF, and STATE. -/
def State.sameMessage (s t : State) : Prop :=
  s.lifecycle = t.lifecycle ∧ s.r = t.r ∧ s.pad = t.pad ∧ s.h = t.h ∧ s.off = t.off ∧
    ∀ j : Fin 16, j.val < s.off.toNat → s.buf[j] = t.buf[j]

/-- One chunk of FEED performed as commands: its bytes in DIN, then UPDATE of their number (30_encoding.md R91). -/
def feedChunk (c : List Byte) (s : State) : Host.Outcome State Fault Refusal :=
  exec (.update c.length) { s with din := Program.packChunk c }

/-- Chunks fed one after the other, stopping where a command stops. -/
def feedChunks : List (List Byte) → State → Host.Outcome State Fault Refusal
  | [], s => .next s
  | c :: cs, s =>
    match feedChunk c s with
    | .next t => feedChunks cs t
    | .fault f => .fault f
    | .refused q => .refused q

/-- Whether a command is one that uses the message: UPDATE with a legal LEN, FINISH, VERIFY (60_exceptions.md R200, rows 3 and 4). -/
def usesOpenMessage : Instr → Prop
  | .nop => False
  | .init _ => False
  | .update n => n ≤ 16
  | .finish => True
  | .verify => True
  | .reset _ => False

/-- The state of a step that performs an access of master `m`: the rest of the queue, the master remembered, the response given. -/
def State.served (s : State) (m : Nat) (rest : List HostEvent) (resp : BusResponse) : State :=
  { s with pending := rest, master := some m, response := some resp }

/-- The state in which `a` is the host's next access, it lies in this engine's window, and its master may drive the engine. -/
def State.about (s : State) (a : BusAccess) (o : Nat) (rest : List HostEvent) : Prop :=
  s.pending = .access a :: rest ∧ a.addr = s.base + o ∧ o < 256 ∧ (s.master = none ∨ s.master = some a.master)

end Sys2Proof.Machine
end

