-- ==== Sys2Proof/Certificates/Slice0/Obligations.lean ====
section
/-! DEFINITION. The statements for the provers. Each docstring names the rule of spec/ a statement formalises, or says what it is
derived from where the spec marks the fact as its own inference or the model made the choice. -/

open Sys2Proof Sys2Proof.Machine

/-! ## Encoding (30_encoding.md) -/

/-- No bit of an encoding is dropped: decoding the word of a well-formed command gives the command (30_encoding.md sections 1, 2). -/
def Obligations.EncodeThenDecodeGivesTheCommand : Prop :=
  ∀ i : Instr, i.wellFormed = true → decode (encode i) = .ok i

/-- Each word has at most one meaning, and a decoded command is well formed (30_encoding.md sections 1, 2). -/
def Obligations.DecodedWordIsTheEncodingOfItsCommand : Prop :=
  ∀ (w : Word) (i : Instr), decode w = .ok i → i.wellFormed = true ∧ encode i = w

/-- 30_encoding.md R86: which words are illegal, and that outside FATAL each of them raises ILLEGAL_CMD. -/
def Obligations.IllegalWordsAreExactlyR86AndAreFatal : Prop :=
  ∀ w : Word,
    ((∃ e, decode w = .error e) ↔
      (rsvField w ≠ 0#16 ∨ 6 ≤ (opField w).toNat ∨
        ((opField w = 0x00#8 ∨ opField w = 0x03#8 ∨ opField w = 0x04#8) ∧ lenField w ≠ 0))) ∧
    ∀ s : State, (∃ e, decode w = .error e) → s.lifecycle ≠ .fatal →
      issueCommand w s = .next (enterFatal .illegalCmd (opField w) (lenField w) s)

/-- Words written out from the opcode map and the syntax table decode to the commands they stand for (30_encoding.md sections 2, 4). -/
def Obligations.WrittenWordsDecodeToTheirCommands : Prop :=
  decode 0x00000000#32 = .ok .nop ∧ decode 0x00002001#32 = .ok (.init 32) ∧ decode 0x00001F01#32 = .ok (.init 31) ∧
    decode 0x00001002#32 = .ok (.update 16) ∧ decode 0x00000202#32 = .ok (.update 2) ∧
    decode 0x00000003#32 = .ok .finish ∧ decode 0x00000004#32 = .ok .verify ∧ decode 0x00000705#32 = .ok (.reset 7) ∧
    decode 0x00010003#32 = .error .reservedBits ∧ decode 0x00000103#32 = .error .lenOnNoOperand ∧
    decode 0x00000006#32 = .error .reservedOpcode

/-- The assembler's table of 30_encoding.md section 4: the word of each line is `(len << 8) | OP`, and the operands it refuses. -/
def Obligations.AssemblerGivesTheWordsOfTheSyntaxTable : Prop :=
  assemble .nop = some 0x00000000#32 ∧ assemble .finish = some 0x00000003#32 ∧ assemble .verify = some 0x00000004#32 ∧
    assemble (.reset 0) = some 0x00000005#32 ∧
    (∀ n, n ≤ 255 → assemble (.init n) = some (0x00000001#32 ||| BitVec.ofNat 32 n <<< 8)) ∧
    (∀ n, n ≤ 16 → assemble (.update n) = some (0x00000002#32 ||| BitVec.ofNat 32 n <<< 8)) ∧
    (∀ n, 255 < n → assemble (.init n) = none) ∧ (∀ n, 16 < n → assemble (.update n) = none) ∧
    ∀ n, n ≠ 0 → assemble (.reset n) = none

/-- 60_exceptions.md R202 and 30_encoding.md R88: for every word in every state, the command that the machine decodes and executes
does exactly what the first applying check of R202 says. -/
def Obligations.EveryWordFollowsTheCheckOrder : Prop :=
  ∀ (w : Word) (s : State), issueCommand w s = .next (applyOutcome (wordOutcome w s.lifecycle) w s)

/-! ## Steps (20_memory.md, 70_reset_and_hazards.md) -/

/-- When the host's next action is a write to CMD of a word that decodes, the step is exec of that command, with the event taken off
the queue, the master remembered and the response given (the queue, the response and the master are the model's own: log entries 3,
4, 5). -/
def Obligations.StepRunsTheDecodedCommand : Prop :=
  ∀ (s : State) (a : BusAccess) (rest : List HostEvent) (w : Word) (i : Instr),
    s.about a 0 rest → a.size = 4 → a.kind = .write w → decode w = .ok i →
      step s = exec i (s.served a.master rest ⟨false, none⟩)

/-- `withFetchWord` makes the very next step run the command of the word, in every state (log entry 3). -/
def Obligations.WithFetchWordRunsThatCommandNext : Prop :=
  ∀ (s : State) (w : Nat) (i : Instr), w < 2 ^ 32 → decodeTableWord 32 w = some i →
    step (s.withFetchWord 32 w) = exec i (s.served (s.master.getD 0) s.pending ⟨false, none⟩)

/-- "the guarantee that every CMD write completes" (70_reset_and_hazards.md section 4), for every access of whatever kind, size,
offset and lifecycle state that lies in the window (its first byte does: log entry 7) and comes from the one host (log entry 5): the
step gives a next state. -/
def Obligations.EveryAccessOfTheHostCompletes : Prop :=
  ∀ (s : State) (a : BusAccess) (o : Nat) (rest : List HostEvent), s.about a o rest → ∃ t, step s = .next t

/-- 60_exceptions.md R215: idleness changes nothing, and a power-down is a hardware reset. -/
def Obligations.IdlenessChangesNothingAndPowerDownResets : Prop :=
  (∀ s : State, s.pending = [] → step s = .next s) ∧
    ∀ (s t : State) (rest : List HostEvent), s.pending = .powerDown :: rest → t = { s with pending := .hardwareReset :: rest } →
      step s = step t

/-- 10_state.md R38, at a hardware reset (70_reset_and_hazards.md R230) in any state, FATAL included: every register of the engine has its
reset value. -/
def Obligations.HardwareResetClearsEveryRegister : Prop :=
  ∀ (s : State) (rest : List HostEvent), s.pending = .hardwareReset :: rest →
    ∃ t, step s = .next t ∧ t.lifecycle = .idle ∧ t.r = ⟨0, 0, 0, 0, 0⟩ ∧ t.pad = #v[0, 0, 0, 0] ∧
      t.h = ⟨0, 0, 0, 0, 0⟩ ∧ (∀ j : Fin 16, t.buf[j] = 0) ∧ t.off = 0 ∧ (∀ j : Fin 8, t.key[j] = 0) ∧
      t.din = #v[0, 0, 0, 0] ∧ t.cand = #v[0, 0, 0, 0] ∧ t.tag = #v[0, 0, 0, 0] ∧ t.keyErr = false ∧ t.tagV = false ∧
      t.vDone = false ∧ t.matched = false ∧ t.eCode = .none ∧ t.eLen = 0 ∧ t.eOp = 0 ∧
      readReg .status t = 0 ∧ readReg .errInfo t = 0

/-- 10_state.md R38: the state after reset. -/
def Obligations.ResetStateHasTheValuesOfR38 : Prop :=
  State.reset.lifecycle = .idle ∧ State.reset.r = ⟨0, 0, 0, 0, 0⟩ ∧ State.reset.pad = #v[0, 0, 0, 0] ∧
    State.reset.h = ⟨0, 0, 0, 0, 0⟩ ∧ (∀ j : Fin 16, State.reset.buf[j] = 0) ∧ State.reset.off = 0 ∧
    (∀ j : Fin 8, State.reset.key[j] = 0) ∧ State.reset.din = #v[0, 0, 0, 0] ∧ State.reset.cand = #v[0, 0, 0, 0] ∧
    State.reset.tag = #v[0, 0, 0, 0] ∧ State.reset.keyErr = false ∧ State.reset.tagV = false ∧
    State.reset.vDone = false ∧ State.reset.matched = false ∧ State.reset.eCode = .none ∧ State.reset.eLen = 0 ∧
    State.reset.eOp = 0

/-! ## NOP and RESET (44_control.md) -/

/-- 44_control.md R190: NOP changes nothing in any lifecycle state, and its malformed words are ILLEGAL_CMD outside FATAL. -/
def Obligations.NopChangesNothing : Prop :=
  (∀ s : State, exec .nop s = .next s) ∧ (∀ s : State, issueCommand 0x00000000#32 s = .next s) ∧
    ∀ (w : Word) (s : State), opField w = 0x00#8 → (rsvField w ≠ 0#16 ∨ lenField w ≠ 0) → s.lifecycle ≠ .fatal →
      issueCommand w s = .next (enterFatal .illegalCmd 0x00#8 (lenField w) s)

/-- 44_control.md R191: RESET outside FATAL always raises RESET_FORBIDDEN, its LEN ignored, with STATUS = 3 and ERRINFO = 0x00050002;
in FATAL it is ignored; with RSV other than 0 the word is ILLEGAL_CMD. -/
def Obligations.ResetIsForbidden : Prop :=
  (∀ (n : Nat) (s : State), s.lifecycle ≠ .fatal →
    ∃ t, exec (.reset n) s = .next t ∧ t = enterFatal .resetForbidden 0x05#8 0 s ∧
      readReg .status t = 0x00000003#32 ∧ readReg .errInfo t = 0x00050002#32) ∧
    (∀ (n : Nat) (s : State), s.lifecycle = .fatal → exec (.reset n) s = .next s) ∧
    ∀ (w : Word) (s : State), opField w = 0x05#8 → rsvField w ≠ 0#16 → s.lifecycle ≠ .fatal →
      issueCommand w s = .next (enterFatal .illegalCmd 0x05#8 (lenField w) s)

/-! ## INIT (40_init.md) -/

/-- 40_init.md R103: what INIT 32 leaves outside FATAL; every register it does not name keeps its value. -/
def Obligations.InitLoadsTheKey : Prop :=
  ∀ s : State, s.lifecycle ≠ .fatal →
    exec (.init 32) s = .next { s with
      r := clampLimbs s.key[0] s.key[1] s.key[2] s.key[3]
      pad := #v[s.key[4], s.key[5], s.key[6], s.key[7]]
      h := ⟨0, 0, 0, 0, 0⟩
      buf := Vector.replicate 16 0
      off := 0
      tag := Vector.replicate 4 0
      key := Vector.replicate 8 0
      keyErr := false
      tagV := false
      vDone := false
      matched := false
      eCode := .none
      eLen := 0
      eOp := 0
      lifecycle := .keyed }

/-- 40_init.md R102 and 60_exceptions.md R204: outside FATAL, INIT with any other length sets KEYERR and ERRINFO and nothing else, and
`INIT 32` then has the effect it would have had, and clears KEYERR and ERRINFO. -/
def Obligations.InitRefusesAWrongKeyLength : Prop :=
  ∀ (n : Nat) (s : State), n < 256 → n ≠ 32 → s.lifecycle ≠ .fatal →
    ∃ t u, exec (.init n) s = .next t ∧
      t = { s with keyErr := true, eCode := .keySize, eLen := BitVec.ofNat 8 n, eOp := 0x01 } ∧
      exec (.init 32) t = .next u ∧ exec (.init 32) s = .next u ∧ u.lifecycle = .keyed ∧ u.keyErr = false ∧
      readReg .errInfo u = 0#32

/-- The whole-value form of the clamp and its bounds, which 40_init.md (rules R104, R106) marks as general knowledge and as derived
(log entry 10): val(r) is the low key half under the 128-bit mask. -/
def Obligations.ClampIsTheMaskOfTheLowKeyHalf : Prop :=
  ∀ t0 t1 t2 t3 : Word,
    (clampLimbs t0 t1 t2 t3).val = leWords [t0, t1, t2, t3] &&& 0x0ffffffc0ffffffc0ffffffc0fffffff ∧
      (clampLimbs t0 t1 t2 t3).clamped

/-- The byte-offset form of the clamp, which 40_init.md (rule R106) marks as derived: le32 at key bytes 0, 3, 6, 9, 12 shifted right by
0, 2, 4, 6, 8 under the same masks gives the same limbs. -/
def Obligations.ClampFromByteOffsetsIsTheSame : Prop :=
  ∀ k : Block,
    clampLimbs (le32 k[0] k[1] k[2] k[3]) (le32 k[4] k[5] k[6] k[7]) (le32 k[8] k[9] k[10] k[11])
        (le32 k[12] k[13] k[14] k[15]) =
      { l0 := le32 k[0] k[1] k[2] k[3] &&& 0x3ffffff#32
        l1 := (le32 k[3] k[4] k[5] k[6] >>> 2) &&& 0x3ffff03#32
        l2 := (le32 k[6] k[7] k[8] k[9] >>> 4) &&& 0x3ffc0ff#32
        l3 := (le32 k[9] k[10] k[11] k[12] >>> 6) &&& 0x3f03fff#32
        l4 := (le32 k[12] k[13] k[14] k[15] >>> 8) &&& 0x00fffff#32 }

/-! ## UPDATE (41_update.md) -/

/-- 41_update.md R121: UPDATE n in KEYED runs the byte loop over chunk bytes 0..n-1. -/
def Obligations.UpdateRunsTheByteLoop : Prop :=
  ∀ (n : Nat) (s : State), n ≤ 16 → s.lifecycle = .keyed →
    exec (.update n) s = .next ((List.range n).foldl
      (fun t k =>
        let buf := t.buf.set t.off.toNat (laneByte s.din k) t.off.isLt
        if t.off.toNat + 1 = 16 then { t with buf := buf, h := fold t.h t.r buf 0x1000000#32, off := 0 }
        else { t with buf := buf, off := t.off + 1 }) s)

/-- UPDATE in closed form, from the corner cases that 41_update.md (rule R123) marks as derived: a chunk that does not fill the buffer
is copied in behind the bytes held; one that does completes one block, which is folded, and its other bytes start the buffer again. -/
def Obligations.UpdateInClosedForm : Prop :=
  ∀ (n : Nat) (s : State), n ≤ 16 → s.lifecycle = .keyed →
    (s.off.toNat + n < 16 →
      exec (.update n) s = .next { s with
        buf := copyInto s.buf s.off.toNat (chunk n s.din), off := s.off + BitVec.ofNat 4 n }) ∧
    (16 ≤ s.off.toNat + n →
      exec (.update n) s = .next { s with
        h := fold s.h s.r (copyInto s.buf s.off.toNat ((chunk n s.din).take (16 - s.off.toNat))) 0x1000000#32
        buf := copyInto (copyInto s.buf s.off.toNat ((chunk n s.din).take (16 - s.off.toNat))) 0
          ((chunk n s.din).drop (16 - s.off.toNat))
        off := s.off + BitVec.ofNat 4 n })

/-- Where UPDATE, FINISH and VERIFY do not run (60_exceptions.md section 1, rows BAD_LEN, NOT_KEYED and CONSUMED): UPDATE above 16 is
BAD_LEN in IDLE, KEYED and FINISHED; a legal one, FINISH and VERIFY are NOT_KEYED in IDLE and CONSUMED in FINISHED. -/
def Obligations.MessageCommandsNeedAnOpenMessage : Prop :=
  (∀ (n : Nat) (s : State), 16 < n → n < 256 → s.lifecycle ≠ .fatal →
    exec (.update n) s = .next (enterFatal .badLen 0x02#8 n s)) ∧
    (∀ (i : Instr) (s : State), usesOpenMessage i → s.lifecycle = .idle →
      exec i s = .next (enterFatal .notKeyed i.op 0 s)) ∧
    ∀ (i : Instr) (s : State), usesOpenMessage i → s.lifecycle = .finished →
      exec i s = .next (enterFatal .consumed i.op 0 s)

/-- The agreement that 41_update.md (rule R122) marks as derived: UPDATE leaves the same message state (H, OFF and the filled bytes) as
the document's three steps on the same bytes, and they agree for a chunk of any length. -/
def Obligations.ByteLoopAgreesWithTheDocumentsThreeSteps : Prop :=
  ∀ (s : State) (m : List Byte), (absorb s m).sameMessage (documentUpdate s m)

/-- Chunking invariance, which 41_update.md (rule R122) derives and the document demands: from one KEYED state, two ways of cutting the
same bytes into chunks of at most 16 both complete, and leave the same message state and the same tag to come. -/
def Obligations.ChunkingDoesNotChangeTheTag : Prop :=
  ∀ (s : State) (cs cs' : List (List Byte)), s.lifecycle = .keyed → (∀ x ∈ cs, x.length ≤ 16) → (∀ x ∈ cs', x.length ≤ 16) →
    cs.flatten = cs'.flatten →
      ∃ t t', feedChunks cs s = .next t ∧ feedChunks cs' s = .next t' ∧ t.sameMessage t' ∧ t.tagWords = t'.tagWords

/-- The frame of UPDATE where it runs: BUF, OFF and H are all it changes, and every window register but STATUS reads as before. -/
def Obligations.UpdateChangesOnlyTheBufferAndTheAccumulator : Prop :=
  ∀ (n : Nat) (s t : State), n ≤ 16 → s.lifecycle = .keyed → exec (.update n) s = .next t →
    t = { s with buf := t.buf, off := t.off, h := t.h } ∧ ∀ q : Reg, q ≠ .status → readReg q t = readReg q s

/-! ## The fold (41_update.md section 2) -/

/-- 41_update.md R127: the limbs of a block by shifts and masks of its four words, and equivalently the 26-bit slices of its 128-bit
value, with the flag in limb 4. -/
def Obligations.DecodeBlockSlicesTheValue : Prop :=
  ∀ (b : Block) (hibit : Word),
    (∀ t0 t1 t2 t3 : Word, t0 = le32 b[0] b[1] b[2] b[3] → t1 = le32 b[4] b[5] b[6] b[7] → t2 = le32 b[8] b[9] b[10] b[11] →
      t3 = le32 b[12] b[13] b[14] b[15] →
      decodeBlock b hibit = ⟨t0 &&& 0x3ffffff#32, ((t0 >>> 26) ||| (t1 <<< 6)) &&& 0x3ffffff#32,
        ((t1 >>> 20) ||| (t2 <<< 12)) &&& 0x3ffffff#32, ((t2 >>> 14) ||| (t3 <<< 18)) &&& 0x3ffffff#32,
        (t3 >>> 8) ||| hibit⟩) ∧
      (decodeBlock b hibit).l0.toNat = leNat b.toList % 2 ^ 26 ∧
      (decodeBlock b hibit).l1.toNat = leNat b.toList / 2 ^ 26 % 2 ^ 26 ∧
      (decodeBlock b hibit).l2.toNat = leNat b.toList / 2 ^ 52 % 2 ^ 26 ∧
      (decodeBlock b hibit).l3.toNat = leNat b.toList / 2 ^ 78 % 2 ^ 26 ∧
      (decodeBlock b hibit).l4.toNat = leNat b.toList / 2 ^ 104 ||| hibit.toNat ∧
      ((hibit = 0#32 ∨ hibit = 0x1000000#32) → (decodeBlock b hibit).l4.toNat < 2 ^ 25)

/-- The bounds that 41_update.md (rule R131) marks as derived: with an accumulator in INV and a clamped multiplier no u32 or u64
operation of a fold wraps, and the sums, carries and the wrapped limb 0 stay below the stated bounds. -/
def Obligations.FoldArithmeticNeverWraps : Prop :=
  ∀ (h r : Limbs) (b : Block) (hibit : Word), h.accBounded → r.clamped → (hibit = 0#32 ∨ hibit = 0x1000000#32) →
    let m := decodeBlock b hibit
    let a := addLimbs h m
    let d := partialSums a r
    let e := carriedSums d
    (a.l0.toNat = h.l0.toNat + m.l0.toNat ∧ a.l1.toNat = h.l1.toNat + m.l1.toNat ∧ a.l2.toNat = h.l2.toNat + m.l2.toNat ∧
        a.l3.toNat = h.l3.toNat + m.l3.toNat ∧ a.l4.toNat = h.l4.toNat + m.l4.toNat) ∧
      (a.l0.toNat ≤ 0x7fffffe ∧ a.l1.toNat ≤ 0x8000024 ∧ a.l2.toNat ≤ 0x7fffffe ∧ a.l3.toNat ≤ 0x7fffffe ∧
        a.l4.toNat ≤ 0x5fffffe) ∧
      (d.d0.toNat = a.l0.toNat * r.l0.toNat + a.l1.toNat * (5 * r.l4.toNat) + a.l2.toNat * (5 * r.l3.toNat)
          + a.l3.toNat * (5 * r.l2.toNat) + a.l4.toNat * (5 * r.l1.toNat) ∧
        d.d1.toNat = a.l0.toNat * r.l1.toNat + a.l1.toNat * r.l0.toNat + a.l2.toNat * (5 * r.l4.toNat)
          + a.l3.toNat * (5 * r.l3.toNat) + a.l4.toNat * (5 * r.l2.toNat) ∧
        d.d2.toNat = a.l0.toNat * r.l2.toNat + a.l1.toNat * r.l1.toNat + a.l2.toNat * r.l0.toNat
          + a.l3.toNat * (5 * r.l4.toNat) + a.l4.toNat * (5 * r.l3.toNat) ∧
        d.d3.toNat = a.l0.toNat * r.l3.toNat + a.l1.toNat * r.l2.toNat + a.l2.toNat * r.l1.toNat
          + a.l3.toNat * r.l0.toNat + a.l4.toNat * (5 * r.l4.toNat) ∧
        d.d4.toNat = a.l0.toNat * r.l4.toNat + a.l1.toNat * r.l3.toNat + a.l2.toNat * r.l2.toNat
          + a.l3.toNat * r.l1.toNat + a.l4.toNat * r.l0.toNat) ∧
      (e.d0.toNat = d.d0.toNat ∧ e.d1.toNat = d.d1.toNat + e.d0.toNat / 2 ^ 26 ∧
        e.d2.toNat = d.d2.toNat + e.d1.toNat / 2 ^ 26 ∧ e.d3.toNat = d.d3.toNat + e.d2.toNat / 2 ^ 26 ∧
        e.d4.toNat = d.d4.toNat + e.d3.toNat / 2 ^ 26) ∧
      (e.d0.toNat < 2 ^ 57 ∧ e.d1.toNat < 2 ^ 57 ∧ e.d2.toNat < 2 ^ 57 ∧ e.d3.toNat < 2 ^ 57 ∧ e.d4.toNat < 2 ^ 57) ∧
      (e.d0.toNat / 2 ^ 26 < 2 ^ 31 ∧ e.d1.toNat / 2 ^ 26 < 2 ^ 31 ∧ e.d2.toNat / 2 ^ 26 < 2 ^ 30 ∧
        e.d3.toNat / 2 ^ 26 < 2 ^ 30 ∧ e.d4.toNat / 2 ^ 26 < 2 ^ 29) ∧
      (wrappedLimb0 e).toNat = e.d0.toNat % 2 ^ 26 + 5 * (e.d4.toNat / 2 ^ 26) ∧ (wrappedLimb0 e).toNat ≤ 0x9a0000b3

/-- The value law that 41_update.md (rule R132) marks as derived: a fold is (h + block) * r modulo p. -/
def Obligations.FoldMultipliesModuloP : Prop :=
  ∀ (h r : Limbs) (b : Block) (hibit : Word), h.accBounded → r.clamped → (hibit = 0#32 ∨ hibit = 0x1000000#32) →
    (fold h r b hibit).val % (2 ^ 130 - 5) =
      (h.val + leNat b.toList + 2 ^ 104 * hibit.toNat) * r.val % (2 ^ 130 - 5)

/-- What 41_update.md (rule R133) marks as derived: a fold keeps INV. -/
def Obligations.FoldKeepsTheAccumulatorBound : Prop :=
  ∀ (h r : Limbs) (b : Block) (hibit : Word), h.accBounded → r.clamped → (hibit = 0#32 ∨ hibit = 0x1000000#32) →
    (fold h r b hibit).accBounded

/-! ## FINISH (42_finish.md) -/

/-- 42_finish.md R152: what FINISH leaves in KEYED; every register it does not name keeps its value. -/
def Obligations.FinishWritesTheTagAndZeroizes : Prop :=
  ∀ s : State, s.lifecycle = .keyed →
    exec .finish s = .next { s with
      tag := tagOf s.h s.r s.pad s.buf s.off
      r := ⟨0, 0, 0, 0, 0⟩
      h := ⟨0, 0, 0, 0, 0⟩
      pad := Vector.replicate 4 0
      buf := Vector.replicate 16 0
      off := 0
      tagV := true
      vDone := false
      matched := false
      lifecycle := .finished }

/-- 42_finish.md R153: the final block is the filled bytes, one 0x01 and zeros, folded with flag 0; with an empty buffer nothing is
folded. -/
def Obligations.FinalBlockIsPaddedWithOneAndZeros : Prop :=
  ∀ (h r : Limbs) (buf : Block) (off : BitVec 4),
    (off ≠ 0#4 →
      (finalBlock buf off).toList = buf.toList.take off.toNat ++ [0x01#8] ++ List.replicate (15 - off.toNat) 0x00#8 ∧
        finalAccumulator h r buf off = fold h r (finalBlock buf off) 0#32) ∧
      (off = 0#4 → finalAccumulator h r buf off = h)

/-- What 42_finish.md (rule R160, part a) marks as derived: Carry of an accumulator in INV is canonical and congruent to it. -/
def Obligations.CarryMakesTheAccumulatorCanonical : Prop :=
  ∀ h : Limbs, h.accBounded →
    (carry h).canonical ∧ (carry h).val < 2 ^ 130 ∧ (carry h).val % (2 ^ 130 - 5) = h.val % (2 ^ 130 - 5)

/-- What 42_finish.md (rule R160, part b) marks as derived: CondSub of a canonical accumulator is its residue modulo p, canonical, and
the sign bit of g4 says whether the accumulator was below p. -/
def Obligations.CondSubIsTheResidueModuloP : Prop :=
  ∀ h : Limbs, h.canonical →
    (condSub h).canonical ∧ (condSub h).val = h.val % (2 ^ 130 - 5) ∧
      ((minusP h).l4.getLsbD 31 = false ↔ 2 ^ 130 - 5 ≤ h.val)

/-- The equality that 42_finish.md (rule R157) marks as derived: packing canonical limbs keeps the low 128 bits of the value. -/
def Obligations.PackKeepsTheLow128Bits : Prop :=
  ∀ h : Limbs, h.canonical → leWords (pack h).toList = h.val % 2 ^ 128

/-- 42_finish.md R158: the pad is added modulo 2^128, the carry out of bit 127 discarded. -/
def Obligations.PadAdditionIsModulo2To128 : Prop :=
  ∀ w pad : Words4, leWords (addPad w pad).toList = (leWords w.toList + leWords pad.toList) % 2 ^ 128

/-- The correctness that 42_finish.md (rule R160, part c) marks as derived: from an accumulator in INV and a clamped multiplier the tag
is ((A mod p) + pad) mod 2^128, where A is the accumulator after the final block, if there is one, has been folded in modulo p. -/
def Obligations.TagIsTheMacOfTheAccumulator : Prop :=
  ∀ (h r : Limbs) (pad : Words4) (buf : Block) (off : BitVec 4), h.accBounded → r.clamped →
    (off = 0#4 → leWords (tagOf h r pad buf off).toList = (h.val % (2 ^ 130 - 5) + leWords pad.toList) % 2 ^ 128) ∧
      (off ≠ 0#4 → leWords (tagOf h r pad buf off).toList =
        ((h.val + leNat (buf.toList.take off.toNat ++ [0x01#8])) * r.val % (2 ^ 130 - 5) + leWords pad.toList) % 2 ^ 128)

/-- The corner case that 42_finish.md (rule R161) marks as derived: FINISH right after INIT 32 gives the pad, in any non-fatal state and
for any key; both commands complete. -/
def Obligations.EmptyMessageTagIsThePad : Prop :=
  ∀ s : State, s.lifecycle ≠ .fatal →
    ∃ t u, exec (.init 32) s = .next t ∧ exec .finish t = .next u ∧
      u.tag = #v[s.key[4], s.key[5], s.key[6], s.key[7]] ∧ u.lifecycle = .finished ∧ u.tagV = true

/-- The weak key of 40_init.md (rule R106, marked derived): with a zero multiplier and accumulator every tag is the pad. -/
def Obligations.ZeroMultiplierTagIsThePad : Prop :=
  ∀ (pad : Words4) (buf : Block) (off : BitVec 4),
    tagOf ⟨0, 0, 0, 0, 0⟩ ⟨0, 0, 0, 0, 0⟩ pad buf off = pad ∧
      ∀ (h : Limbs) (b : Block) (hibit : Word), fold h ⟨0, 0, 0, 0, 0⟩ b hibit = ⟨0, 0, 0, 0, 0⟩

/-! ## VERIFY (43_verify.md) -/

/-- 43_verify.md R180: what VERIFY leaves in KEYED, with MATCH = 1 exactly when the tag equals CAND; every register it does not name
keeps its value; and where it does not run. -/
def Obligations.VerifyComparesTheTagAndZeroizes : Prop :=
  (∀ s : State, s.lifecycle = .keyed →
    exec .verify s = .next { s with
      matched := decide (tagOf s.h s.r s.pad s.buf s.off = s.cand)
      tag := Vector.replicate 4 0
      r := ⟨0, 0, 0, 0, 0⟩
      h := ⟨0, 0, 0, 0, 0⟩
      pad := Vector.replicate 4 0
      buf := Vector.replicate 16 0
      off := 0
      tagV := false
      vDone := true
      lifecycle := .finished }) ∧
    (∀ s : State, s.lifecycle = .idle → exec .verify s = .next (enterFatal .notKeyed 0x04#8 0 s)) ∧
    (∀ s : State, s.lifecycle = .finished → exec .verify s = .next (enterFatal .consumed 0x04#8 0 s)) ∧
    ∀ (w : Word) (s : State), opField w = 0x04#8 → (rsvField w ≠ 0#16 ∨ lenField w ≠ 0) → s.lifecycle ≠ .fatal →
      issueCommand w s = .next (enterFatal .illegalCmd 0x04#8 (lenField w) s)

/-- 43_verify.md R181: CtEqual is 1 exactly when all 16 bytes are equal, else 0. -/
def Obligations.CtEqualIsOneExactlyOnEqualTags : Prop :=
  ∀ t u : Words4, ctEqual t u = (if bytesOf t = bytesOf u then 1#32 else 0#32)

/-- The round trip and exactness that 43_verify.md (rule R183) states from its rules: in one KEYED state, VERIFY says MATCH = 1 exactly
when CAND holds the tag that FINISH would give, and it shows no tag. -/
def Obligations.VerifyAcceptsExactlyTheTagOfFinish : Prop :=
  ∀ s : State, s.lifecycle = .keyed →
    ∃ f v, exec .finish s = .next f ∧ exec .verify s = .next v ∧ (v.matched = true ↔ s.cand = f.tag) ∧
      v.vDone = true ∧ (∀ i : Fin 4, readReg (.tag i) v = 0#32) ∧ ∀ i : Fin 4, readReg (.tag i) f = f.tag[i]

/-- The frame of FINISH and VERIFY where they run: KEY, DIN, CAND, ERRINFO, KEYERR and the host's side keep their values, and every
window register but STATUS and TAG reads as before. -/
def Obligations.FinishAndVerifyFrame : Prop :=
  ∀ (i : Instr) (s t : State), (i = .finish ∨ i = .verify) → s.lifecycle = .keyed → exec i s = .next t →
    t.key = s.key ∧ t.din = s.din ∧ t.cand = s.cand ∧ t.keyErr = s.keyErr ∧ t.eCode = s.eCode ∧ t.eLen = s.eLen ∧
      t.eOp = s.eOp ∧ t.samePort s ∧
      ∀ q : Reg, q ≠ .status → (∀ j, q ≠ .tag j) → readReg q t = readReg q s

/-! ## Errors (60_exceptions.md) -/

/-- 60_exceptions.md R203: the fatal error entry, every register; ELEN is LEN for BAD_LEN and 0 for the other fatal codes, and DIN and
CAND keep their values. -/
def Obligations.FatalEntryZeroizesAndLatchesTheError : Prop :=
  ∀ (code : ErrorCode) (op : Byte) (len : Nat) (s : State), code ≠ .none → code ≠ .keySize →
    enterFatal code op len s = { s with
      r := ⟨0, 0, 0, 0, 0⟩
      h := ⟨0, 0, 0, 0, 0⟩
      pad := Vector.replicate 4 0
      tag := Vector.replicate 4 0
      buf := Vector.replicate 16 0
      off := 0
      key := Vector.replicate 8 0
      keyErr := false
      tagV := false
      vDone := false
      matched := false
      eCode := code
      eLen := if code = .badLen then BitVec.ofNat 8 len else 0
      eOp := op
      lifecycle := .fatal }

/-- 60_exceptions.md R205: in FATAL every word is ignored, KEY, DIN and CAND writes are stored, reads are as always, and only hardware
reset (or a power-down, which is one: R215) leaves FATAL. -/
def Obligations.FatalIgnoresCommandsUntilHardwareReset : Prop :=
  ∀ s : State, s.lifecycle = .fatal →
    (∀ w : Word, issueCommand w s = .next s) ∧ (∀ i : Instr, exec i s = .next s) ∧
      (∀ (j : Fin 8) (v : Word), writeReg (.key j) v s = .next { s with key := s.key.set j v }) ∧
      (∀ (j : Fin 4) (v : Word), writeReg (.din j) v s = .next { s with din := s.din.set j v }) ∧
      (∀ (j : Fin 4) (v : Word), writeReg (.cand j) v s = .next { s with cand := s.cand.set j v }) ∧
      (readReg .status s).extractLsb' 0 2 = 3#2 ∧
      ∀ t, step s = .next t → t.lifecycle ≠ .fatal →
        ∃ rest, s.pending = .hardwareReset :: rest ∨ s.pending = .powerDown :: rest

/-- Which command writes each flag (10_state.md section 3, the list of flag writers in rule R36): a flag that a command leaves other
than it found it was written by one of the writers listed there. -/
def Obligations.FlagsHaveOnlyTheirListedWriters : Prop :=
  ∀ (i : Instr) (s t : State), exec i s = .next t →
    (t.keyErr = s.keyErr ∨ (t.keyErr = true ∧ t.eCode = .keySize) ∨
        (t.keyErr = false ∧ (i = .init 32 ∨ t.lifecycle = .fatal))) ∧
      (t.tagV = s.tagV ∨ (t.tagV = true ∧ i = .finish) ∨
        (t.tagV = false ∧ (i = .init 32 ∨ i = .verify ∨ t.lifecycle = .fatal))) ∧
      (t.vDone = s.vDone ∨ (t.vDone = true ∧ i = .verify) ∨
        (t.vDone = false ∧ (i = .init 32 ∨ i = .finish ∨ t.lifecycle = .fatal))) ∧
      (t.matched = s.matched ∨ i = .verify ∨
        (t.matched = false ∧ (i = .init 32 ∨ i = .finish ∨ t.lifecycle = .fatal)))

/-- The multiplier and the pad have one source (10_state.md section 2, rules R24 and R25): a command leaves them alone, sets both to 0, or
is INIT 32 and takes them from KEY. -/
def Obligations.OnlyInitGivesTheMultiplierAndPadAValue : Prop :=
  ∀ (i : Instr) (s t : State), exec i s = .next t →
    (t.r = s.r ∧ t.pad = s.pad) ∨ (t.r = ⟨0, 0, 0, 0, 0⟩ ∧ t.pad = Vector.replicate 4 0) ∨
      (i = .init 32 ∧ t.r = clampLimbs s.key[0] s.key[1] s.key[2] s.key[3] ∧
        t.pad = #v[s.key[4], s.key[5], s.key[6], s.key[7]])

/-- No command changes DIN, CAND or the host's side of the bus (10_state.md section 3, rules R34 and R35), and every window register but
STATUS, ERRINFO and TAG reads the same after any command. -/
def Obligations.NoCommandChangesDataRegisters : Prop :=
  ∀ (i : Instr) (s t : State), exec i s = .next t →
    t.din = s.din ∧ t.cand = s.cand ∧ t.samePort s ∧
      ∀ q : Reg, q ≠ .status → q ≠ .errInfo → (∀ j, q ≠ .tag j) → readReg q t = readReg q s

/-! ## The window (10_state.md section 3, 20_memory.md) -/

/-- 10_state.md R31: the fields of STATUS, and that no write changes it. -/
def Obligations.StatusHasTheFieldsOfR31 : Prop :=
  ∀ s : State,
    (readReg .status s).extractLsb' 0 2 =
        (match s.lifecycle with | .idle => 0#2 | .keyed => 1#2 | .finished => 2#2 | .fatal => 3#2) ∧
      (readReg .status s).getLsbD 2 = s.keyErr ∧ (readReg .status s).getLsbD 3 = s.tagV ∧
      (readReg .status s).getLsbD 4 = s.vDone ∧ (readReg .status s).getLsbD 5 = s.matched ∧
      (readReg .status s).extractLsb' 6 2 = 0#2 ∧ (readReg .status s).extractLsb' 8 4 = s.off ∧
      (readReg .status s).extractLsb' 12 20 = 0#20 ∧ ∀ v : Word, writeReg .status v s = .next s

/-- 10_state.md R32 with the codes of 60_exceptions.md R200: the fields of ERRINFO, and that no write changes it. -/
def Obligations.ErrInfoHasTheFieldsOfR32 : Prop :=
  ∀ s : State,
    (readReg .errInfo s).extractLsb' 0 4 =
        (match s.eCode with
          | .none => 0#4 | .keySize => 1#4 | .resetForbidden => 2#4 | .notKeyed => 3#4 | .consumed => 4#4
          | .illegalCmd => 5#4 | .badLen => 6#4) ∧
      (readReg .errInfo s).extractLsb' 4 4 = 0#4 ∧ (readReg .errInfo s).extractLsb' 8 8 = s.eLen ∧
      (readReg .errInfo s).extractLsb' 16 8 = s.eOp ∧ (readReg .errInfo s).extractLsb' 24 8 = 0#8 ∧
      ∀ v : Word, writeReg .errInfo v s = .next s

/-- The register map of 20_memory.md section 1, both ways: each register answers at its offset, each aligned offset of the window names
the register whose offset it is or is reserved, and the reserved ones read 0 and ignore writes. -/
def Obligations.OffsetsAreTheRegisterMap : Prop :=
  regAt 0x00 = .cmd ∧ regAt 0x04 = .status ∧ regAt 0x08 = .errInfo ∧ (∀ j : Fin 8, regAt (0x10 + 4 * j) = .key j) ∧
    (∀ j : Fin 4, regAt (0x30 + 4 * j) = .din j) ∧ (∀ j : Fin 4, regAt (0x40 + 4 * j) = .cand j) ∧
    (∀ j : Fin 4, regAt (0x50 + 4 * j) = .tag j) ∧
    ∀ o, o < 256 → o % 4 = 0 →
      (regAt o = .reserved ↔ o = 0x0C ∨ 0x60 ≤ o) ∧ (regAt o ≠ .reserved → Program.offset (regAt o) = o)

/-- 20_memory.md R52: the reserved offsets read as 0 and ignore writes, with no error. (`served` is the model's own bookkeeping of the
queue, the response and the master, here and below: log entries 3, 4, 5.) -/
def Obligations.ReservedOffsetsReadZeroAndIgnoreWrites : Prop :=
  ∀ (s : State) (a : BusAccess) (o : Nat) (rest : List HostEvent), s.about a o rest → a.size = 4 → o % 4 = 0 →
    (o = 0x0C ∨ 0x60 ≤ o) →
      (a.kind = .read → step s = .next (s.served a.master rest ⟨false, some 0#32⟩)) ∧
        ∀ v, a.kind = .write v → step s = .next (s.served a.master rest ⟨false, none⟩)

/-- An access that is not 32 bits at a multiple of 4 gets a bus error, has no effect on engine state, and returns 0 if it is a read
(20_memory.md section 2, rule R53). That an access which begins in the window and ends beyond BASE+0xFF is one of these is the model's
choice (log entry 7). -/
def Obligations.MalformedAccessIsABusErrorWithoutEffect : Prop :=
  ∀ (s : State) (a : BusAccess) (o : Nat) (rest : List HostEvent), s.about a o rest → (a.size ≠ 4 ∨ o % 4 ≠ 0) →
    (a.kind = .read → step s = .next (s.served a.master rest ⟨true, some 0#32⟩)) ∧
      ∀ v, a.kind = .write v → step s = .next (s.served a.master rest ⟨true, none⟩)

/-- 20_memory.md R55: a read changes nothing and gives the register, 0 for CMD and KEY; a write to KEY, DIN or CAND only stores the
word; a write to STATUS, ERRINFO or TAG is ignored; a write to CMD issues a command. -/
def Obligations.AccessesActAsTheirAccessTypes : Prop :=
  ∀ (s : State) (a : BusAccess) (o : Nat) (rest : List HostEvent), s.about a o rest → a.size = 4 → o % 4 = 0 →
    (a.kind = .read → step s = .next (s.served a.master rest ⟨false, some (readReg (regAt o) s)⟩)) ∧
      readReg .cmd s = 0#32 ∧ (∀ j, readReg (.key j) s = 0#32) ∧
      (∀ j, readReg (.din j) s = s.din[j]) ∧ (∀ j, readReg (.cand j) s = s.cand[j]) ∧ (∀ j, readReg (.tag j) s = s.tag[j]) ∧
      ∀ v, a.kind = .write v →
        (∀ j, regAt o = .key j →
          step s = .next { s.served a.master rest ⟨false, none⟩ with key := s.key.set j v }) ∧
        (∀ j, regAt o = .din j →
          step s = .next { s.served a.master rest ⟨false, none⟩ with din := s.din.set j v }) ∧
        (∀ j, regAt o = .cand j →
          step s = .next { s.served a.master rest ⟨false, none⟩ with cand := s.cand.set j v }) ∧
        ((regAt o = .status ∨ regAt o = .errInfo ∨ ∃ j, regAt o = .tag j) →
          step s = .next (s.served a.master rest ⟨false, none⟩)) ∧
        (regAt o = .cmd → step s = issueCommand v (s.served a.master rest ⟨false, none⟩))

/-- The byte lanes of 20_memory.md section 3 (rules R56 and R59 of 42_finish.md's encoding): packing 16 bytes into four words and taking
the lanes out again gives the bytes, the other way round too, and the value of the words is the value of the bytes. -/
def Obligations.ByteLanesAreLittleEndian : Prop :=
  (∀ v : Words4, Program.packChunk (bytesOf v) = v ∧ leNat (bytesOf v) = leWords v.toList) ∧
    ∀ c : List Byte, c.length ≤ 16 → bytesOf (Program.packChunk c) = c ++ List.replicate (16 - c.length) 0#8

/-- Hidden state (10_state.md section 4, rule R37, and section 3, rule R33): two states the host cannot tell apart answer every read
alike, and stay so under every command but FINISH and VERIFY, whatever their KEY, R, PAD, H and BUF hold. -/
def Obligations.KeyMaterialShowsOnlyThroughFinishAndVerify : Prop :=
  ∀ s t : State, s.sameToHost t →
    (∀ q : Reg, readReg q s = readReg q t) ∧
      ∀ i : Instr, i ≠ .finish → i ≠ .verify →
        ∃ s' t', exec i s = .next s' ∧ exec i t = .next t' ∧ s'.sameToHost t'

/-- Stale bytes (10_state.md section 2, rule R27, and 93_implementation_defined.md U13): no command's effect depends on BUF[OFF..15], but
for those bytes themselves. -/
def Obligations.StaleBufferBytesNeverMatter : Prop :=
  ∀ (i : Instr) (s : State) (buf : Block), (∀ j : Fin 16, j.val < s.off.toNat → s.buf[j] = buf[j]) →
    ∃ t buf', exec i s = .next t ∧ exec i { s with buf := buf } = .next { t with buf := buf' } ∧
      ∀ j : Fin 16, j.val < t.off.toNat → t.buf[j] = buf'[j]

/-- One host per engine (20_memory.md section 4, rule R66): an access of another master is refused, and when a master is remembered and
forgotten is the model's choice (log entry 5). An access outside the window faults (log entry 6); by the model's choice that takes in
one that begins before BASE and reaches into the window (log entry 7). -/
def Obligations.SecondMastersAndOutsideAddressesStop : Prop :=
  ∀ (s : State) (a : BusAccess) (rest : List HostEvent), s.pending = .access a :: rest →
    (s.base ≤ a.addr ∧ a.addr < s.base + 256 → (∃ m, s.master = some m ∧ m ≠ a.master) → step s = .refused .secondMaster) ∧
      (a.addr < s.base ∨ s.base + 256 ≤ a.addr → step s = .fault .outsideWindow)

/-- Engines share nothing (60_exceptions.md section 5, rule R212): a step of one changes no other; an access outside an engine's window
does not reach it; steps of different engines commute; and windows at different aligned bases are disjoint (20_memory.md section 1,
rule R50). That a platform delivers an access by window and steps one engine at a time is the model's choice (log entry 16). -/
def Obligations.EnginesShareNothing : Prop :=
  (∀ (k : Nat) (p q : Platform), p.stepEngine k = .next q →
    q.engines.length = p.engines.length ∧ ∀ j, j ≠ k → q.engines[j]? = p.engines[j]?) ∧
    (∀ (p : Platform) (a : BusAccess) (j : Nat) (s : State), p.engines[j]? = some s → s.owns a.addr = false →
      (p.deliver a).engines[j]? = some s) ∧
    (∀ (j k : Nat) (p q u : Platform), j ≠ k → p.stepEngine j = .next q → q.stepEngine k = .next u →
      ∃ q', p.stepEngine k = .next q' ∧ q'.stepEngine j = .next u) ∧
    ∀ (s t : State) (addr : Nat), s.base % 256 = 0 → t.base % 256 = 0 → s.base ≠ t.base → s.owns addr = true →
      t.owns addr = false

/-! ## The invariant -/

/-- The invariant holds after reset. -/
def Obligations.ResetStateMeetsTheInvariant : Prop := State.reset.Inv

/-- Every step keeps the invariant: the accumulator bound INV (10_state.md R28), the bounds of a clamped multiplier, zeroization outside
KEYED, the flags and ERRINFO each lifecycle state allows, a tag and a verdict only while their flags say so, and the alignment of
BASE. -/
def Obligations.EveryStepKeepsTheInvariant : Prop :=
  ∀ s t : State, s.Inv → step s = .next t → t.Inv
end

