-- ==== Sys2Proof/Laws/State.lean ====
section
/-! SUPPORT. One lemma per field per update of a state, each true by rfl, so that no later proof unfolds a record update; the fields
of the reset state; and what `absorbByte` leaves alone. -/

namespace Sys2Proof.Machine

variable (s : State)

/-! `clearFlags` -/
@[simp] theorem clearFlags_lifecycle : (clearFlags s).lifecycle = s.lifecycle := rfl
@[simp] theorem clearFlags_r : (clearFlags s).r = s.r := rfl
@[simp] theorem clearFlags_pad : (clearFlags s).pad = s.pad := rfl
@[simp] theorem clearFlags_h : (clearFlags s).h = s.h := rfl
@[simp] theorem clearFlags_buf : (clearFlags s).buf = s.buf := rfl
@[simp] theorem clearFlags_off : (clearFlags s).off = s.off := rfl
@[simp] theorem clearFlags_key : (clearFlags s).key = s.key := rfl
@[simp] theorem clearFlags_din : (clearFlags s).din = s.din := rfl
@[simp] theorem clearFlags_cand : (clearFlags s).cand = s.cand := rfl
@[simp] theorem clearFlags_tag : (clearFlags s).tag = s.tag := rfl
@[simp] theorem clearFlags_keyErr : (clearFlags s).keyErr = false := rfl
@[simp] theorem clearFlags_tagV : (clearFlags s).tagV = false := rfl
@[simp] theorem clearFlags_vDone : (clearFlags s).vDone = false := rfl
@[simp] theorem clearFlags_matched : (clearFlags s).matched = false := rfl
@[simp] theorem clearFlags_eCode : (clearFlags s).eCode = s.eCode := rfl
@[simp] theorem clearFlags_eLen : (clearFlags s).eLen = s.eLen := rfl
@[simp] theorem clearFlags_eOp : (clearFlags s).eOp = s.eOp := rfl
@[simp] theorem clearFlags_base : (clearFlags s).base = s.base := rfl
@[simp] theorem clearFlags_pending : (clearFlags s).pending = s.pending := rfl
@[simp] theorem clearFlags_response : (clearFlags s).response = s.response := rfl
@[simp] theorem clearFlags_master : (clearFlags s).master = s.master := rfl

/-! `setTagValid` -/
@[simp] theorem setTagValid_lifecycle : (setTagValid s).lifecycle = s.lifecycle := rfl
@[simp] theorem setTagValid_r : (setTagValid s).r = s.r := rfl
@[simp] theorem setTagValid_pad : (setTagValid s).pad = s.pad := rfl
@[simp] theorem setTagValid_h : (setTagValid s).h = s.h := rfl
@[simp] theorem setTagValid_buf : (setTagValid s).buf = s.buf := rfl
@[simp] theorem setTagValid_off : (setTagValid s).off = s.off := rfl
@[simp] theorem setTagValid_key : (setTagValid s).key = s.key := rfl
@[simp] theorem setTagValid_din : (setTagValid s).din = s.din := rfl
@[simp] theorem setTagValid_cand : (setTagValid s).cand = s.cand := rfl
@[simp] theorem setTagValid_tag : (setTagValid s).tag = s.tag := rfl
@[simp] theorem setTagValid_keyErr : (setTagValid s).keyErr = s.keyErr := rfl
@[simp] theorem setTagValid_tagV : (setTagValid s).tagV = true := rfl
@[simp] theorem setTagValid_vDone : (setTagValid s).vDone = false := rfl
@[simp] theorem setTagValid_matched : (setTagValid s).matched = false := rfl
@[simp] theorem setTagValid_eCode : (setTagValid s).eCode = s.eCode := rfl
@[simp] theorem setTagValid_eLen : (setTagValid s).eLen = s.eLen := rfl
@[simp] theorem setTagValid_eOp : (setTagValid s).eOp = s.eOp := rfl
@[simp] theorem setTagValid_base : (setTagValid s).base = s.base := rfl
@[simp] theorem setTagValid_pending : (setTagValid s).pending = s.pending := rfl
@[simp] theorem setTagValid_response : (setTagValid s).response = s.response := rfl
@[simp] theorem setTagValid_master : (setTagValid s).master = s.master := rfl

/-! `setVerdict` -/
@[simp] theorem setVerdict_lifecycle (eq : Bool) : (setVerdict eq s).lifecycle = s.lifecycle := rfl
@[simp] theorem setVerdict_r (eq : Bool) : (setVerdict eq s).r = s.r := rfl
@[simp] theorem setVerdict_pad (eq : Bool) : (setVerdict eq s).pad = s.pad := rfl
@[simp] theorem setVerdict_h (eq : Bool) : (setVerdict eq s).h = s.h := rfl
@[simp] theorem setVerdict_buf (eq : Bool) : (setVerdict eq s).buf = s.buf := rfl
@[simp] theorem setVerdict_off (eq : Bool) : (setVerdict eq s).off = s.off := rfl
@[simp] theorem setVerdict_key (eq : Bool) : (setVerdict eq s).key = s.key := rfl
@[simp] theorem setVerdict_din (eq : Bool) : (setVerdict eq s).din = s.din := rfl
@[simp] theorem setVerdict_cand (eq : Bool) : (setVerdict eq s).cand = s.cand := rfl
@[simp] theorem setVerdict_tag (eq : Bool) : (setVerdict eq s).tag = s.tag := rfl
@[simp] theorem setVerdict_keyErr (eq : Bool) : (setVerdict eq s).keyErr = s.keyErr := rfl
@[simp] theorem setVerdict_tagV (eq : Bool) : (setVerdict eq s).tagV = false := rfl
@[simp] theorem setVerdict_vDone (eq : Bool) : (setVerdict eq s).vDone = true := rfl
@[simp] theorem setVerdict_matched (eq : Bool) : (setVerdict eq s).matched = eq := rfl
@[simp] theorem setVerdict_eCode (eq : Bool) : (setVerdict eq s).eCode = s.eCode := rfl
@[simp] theorem setVerdict_eLen (eq : Bool) : (setVerdict eq s).eLen = s.eLen := rfl
@[simp] theorem setVerdict_eOp (eq : Bool) : (setVerdict eq s).eOp = s.eOp := rfl
@[simp] theorem setVerdict_base (eq : Bool) : (setVerdict eq s).base = s.base := rfl
@[simp] theorem setVerdict_pending (eq : Bool) : (setVerdict eq s).pending = s.pending := rfl
@[simp] theorem setVerdict_response (eq : Bool) : (setVerdict eq s).response = s.response := rfl
@[simp] theorem setVerdict_master (eq : Bool) : (setVerdict eq s).master = s.master := rfl

/-! `setErrInfo` -/
@[simp] theorem setErrInfo_lifecycle (code : ErrorCode) (len op : Byte) : (setErrInfo code len op s).lifecycle = s.lifecycle := rfl
@[simp] theorem setErrInfo_r (code : ErrorCode) (len op : Byte) : (setErrInfo code len op s).r = s.r := rfl
@[simp] theorem setErrInfo_pad (code : ErrorCode) (len op : Byte) : (setErrInfo code len op s).pad = s.pad := rfl
@[simp] theorem setErrInfo_h (code : ErrorCode) (len op : Byte) : (setErrInfo code len op s).h = s.h := rfl
@[simp] theorem setErrInfo_buf (code : ErrorCode) (len op : Byte) : (setErrInfo code len op s).buf = s.buf := rfl
@[simp] theorem setErrInfo_off (code : ErrorCode) (len op : Byte) : (setErrInfo code len op s).off = s.off := rfl
@[simp] theorem setErrInfo_key (code : ErrorCode) (len op : Byte) : (setErrInfo code len op s).key = s.key := rfl
@[simp] theorem setErrInfo_din (code : ErrorCode) (len op : Byte) : (setErrInfo code len op s).din = s.din := rfl
@[simp] theorem setErrInfo_cand (code : ErrorCode) (len op : Byte) : (setErrInfo code len op s).cand = s.cand := rfl
@[simp] theorem setErrInfo_tag (code : ErrorCode) (len op : Byte) : (setErrInfo code len op s).tag = s.tag := rfl
@[simp] theorem setErrInfo_keyErr (code : ErrorCode) (len op : Byte) : (setErrInfo code len op s).keyErr = s.keyErr := rfl
@[simp] theorem setErrInfo_tagV (code : ErrorCode) (len op : Byte) : (setErrInfo code len op s).tagV = s.tagV := rfl
@[simp] theorem setErrInfo_vDone (code : ErrorCode) (len op : Byte) : (setErrInfo code len op s).vDone = s.vDone := rfl
@[simp] theorem setErrInfo_matched (code : ErrorCode) (len op : Byte) : (setErrInfo code len op s).matched = s.matched := rfl
@[simp] theorem setErrInfo_eCode (code : ErrorCode) (len op : Byte) : (setErrInfo code len op s).eCode = code := rfl
@[simp] theorem setErrInfo_eLen (code : ErrorCode) (len op : Byte) : (setErrInfo code len op s).eLen = len := rfl
@[simp] theorem setErrInfo_eOp (code : ErrorCode) (len op : Byte) : (setErrInfo code len op s).eOp = op := rfl
@[simp] theorem setErrInfo_base (code : ErrorCode) (len op : Byte) : (setErrInfo code len op s).base = s.base := rfl
@[simp] theorem setErrInfo_pending (code : ErrorCode) (len op : Byte) : (setErrInfo code len op s).pending = s.pending := rfl
@[simp] theorem setErrInfo_response (code : ErrorCode) (len op : Byte) : (setErrInfo code len op s).response = s.response := rfl
@[simp] theorem setErrInfo_master (code : ErrorCode) (len op : Byte) : (setErrInfo code len op s).master = s.master := rfl

/-! `zeroize` -/
@[simp] theorem zeroize_lifecycle : (zeroize s).lifecycle = s.lifecycle := rfl
@[simp] theorem zeroize_r : (zeroize s).r = Limbs.zero := rfl
@[simp] theorem zeroize_pad : (zeroize s).pad = Words4.zero := rfl
@[simp] theorem zeroize_h : (zeroize s).h = Limbs.zero := rfl
@[simp] theorem zeroize_buf : (zeroize s).buf = Block.zero := rfl
@[simp] theorem zeroize_off : (zeroize s).off = 0#4 := rfl
@[simp] theorem zeroize_key : (zeroize s).key = s.key := rfl
@[simp] theorem zeroize_din : (zeroize s).din = s.din := rfl
@[simp] theorem zeroize_cand : (zeroize s).cand = s.cand := rfl
@[simp] theorem zeroize_tag : (zeroize s).tag = s.tag := rfl
@[simp] theorem zeroize_keyErr : (zeroize s).keyErr = s.keyErr := rfl
@[simp] theorem zeroize_tagV : (zeroize s).tagV = s.tagV := rfl
@[simp] theorem zeroize_vDone : (zeroize s).vDone = s.vDone := rfl
@[simp] theorem zeroize_matched : (zeroize s).matched = s.matched := rfl
@[simp] theorem zeroize_eCode : (zeroize s).eCode = s.eCode := rfl
@[simp] theorem zeroize_eLen : (zeroize s).eLen = s.eLen := rfl
@[simp] theorem zeroize_eOp : (zeroize s).eOp = s.eOp := rfl
@[simp] theorem zeroize_base : (zeroize s).base = s.base := rfl
@[simp] theorem zeroize_pending : (zeroize s).pending = s.pending := rfl
@[simp] theorem zeroize_response : (zeroize s).response = s.response := rfl
@[simp] theorem zeroize_master : (zeroize s).master = s.master := rfl

/-! `enterFatal` -/
@[simp] theorem enterFatal_lifecycle (code : ErrorCode) (op : Byte) (len : Nat) : (enterFatal code op len s).lifecycle = .fatal := rfl
@[simp] theorem enterFatal_r (code : ErrorCode) (op : Byte) (len : Nat) : (enterFatal code op len s).r = Limbs.zero := rfl
@[simp] theorem enterFatal_pad (code : ErrorCode) (op : Byte) (len : Nat) : (enterFatal code op len s).pad = Words4.zero := rfl
@[simp] theorem enterFatal_h (code : ErrorCode) (op : Byte) (len : Nat) : (enterFatal code op len s).h = Limbs.zero := rfl
@[simp] theorem enterFatal_buf (code : ErrorCode) (op : Byte) (len : Nat) : (enterFatal code op len s).buf = Block.zero := rfl
@[simp] theorem enterFatal_off (code : ErrorCode) (op : Byte) (len : Nat) : (enterFatal code op len s).off = 0#4 := rfl
@[simp] theorem enterFatal_key (code : ErrorCode) (op : Byte) (len : Nat) : (enterFatal code op len s).key = Vector.replicate 8 0#32 := rfl
@[simp] theorem enterFatal_din (code : ErrorCode) (op : Byte) (len : Nat) : (enterFatal code op len s).din = s.din := rfl
@[simp] theorem enterFatal_cand (code : ErrorCode) (op : Byte) (len : Nat) : (enterFatal code op len s).cand = s.cand := rfl
@[simp] theorem enterFatal_tag (code : ErrorCode) (op : Byte) (len : Nat) : (enterFatal code op len s).tag = Words4.zero := rfl
@[simp] theorem enterFatal_keyErr (code : ErrorCode) (op : Byte) (len : Nat) : (enterFatal code op len s).keyErr = false := rfl
@[simp] theorem enterFatal_tagV (code : ErrorCode) (op : Byte) (len : Nat) : (enterFatal code op len s).tagV = false := rfl
@[simp] theorem enterFatal_vDone (code : ErrorCode) (op : Byte) (len : Nat) : (enterFatal code op len s).vDone = false := rfl
@[simp] theorem enterFatal_matched (code : ErrorCode) (op : Byte) (len : Nat) : (enterFatal code op len s).matched = false := rfl
@[simp] theorem enterFatal_eCode (code : ErrorCode) (op : Byte) (len : Nat) : (enterFatal code op len s).eCode = code := rfl
@[simp] theorem enterFatal_eLen (code : ErrorCode) (op : Byte) (len : Nat) : (enterFatal code op len s).eLen = recordedLen code len := rfl
@[simp] theorem enterFatal_eOp (code : ErrorCode) (op : Byte) (len : Nat) : (enterFatal code op len s).eOp = op := rfl
@[simp] theorem enterFatal_base (code : ErrorCode) (op : Byte) (len : Nat) : (enterFatal code op len s).base = s.base := rfl
@[simp] theorem enterFatal_pending (code : ErrorCode) (op : Byte) (len : Nat) : (enterFatal code op len s).pending = s.pending := rfl
@[simp] theorem enterFatal_response (code : ErrorCode) (op : Byte) (len : Nat) : (enterFatal code op len s).response = s.response := rfl
@[simp] theorem enterFatal_master (code : ErrorCode) (op : Byte) (len : Nat) : (enterFatal code op len s).master = s.master := rfl

/-! `refuseKeySize` -/
@[simp] theorem refuseKeySize_lifecycle (len : Nat) : (refuseKeySize len s).lifecycle = s.lifecycle := rfl
@[simp] theorem refuseKeySize_r (len : Nat) : (refuseKeySize len s).r = s.r := rfl
@[simp] theorem refuseKeySize_pad (len : Nat) : (refuseKeySize len s).pad = s.pad := rfl
@[simp] theorem refuseKeySize_h (len : Nat) : (refuseKeySize len s).h = s.h := rfl
@[simp] theorem refuseKeySize_buf (len : Nat) : (refuseKeySize len s).buf = s.buf := rfl
@[simp] theorem refuseKeySize_off (len : Nat) : (refuseKeySize len s).off = s.off := rfl
@[simp] theorem refuseKeySize_key (len : Nat) : (refuseKeySize len s).key = s.key := rfl
@[simp] theorem refuseKeySize_din (len : Nat) : (refuseKeySize len s).din = s.din := rfl
@[simp] theorem refuseKeySize_cand (len : Nat) : (refuseKeySize len s).cand = s.cand := rfl
@[simp] theorem refuseKeySize_tag (len : Nat) : (refuseKeySize len s).tag = s.tag := rfl
@[simp] theorem refuseKeySize_keyErr (len : Nat) : (refuseKeySize len s).keyErr = true := rfl
@[simp] theorem refuseKeySize_tagV (len : Nat) : (refuseKeySize len s).tagV = s.tagV := rfl
@[simp] theorem refuseKeySize_vDone (len : Nat) : (refuseKeySize len s).vDone = s.vDone := rfl
@[simp] theorem refuseKeySize_matched (len : Nat) : (refuseKeySize len s).matched = s.matched := rfl
@[simp] theorem refuseKeySize_eCode (len : Nat) : (refuseKeySize len s).eCode = .keySize := rfl
@[simp] theorem refuseKeySize_eLen (len : Nat) : (refuseKeySize len s).eLen = BitVec.ofNat 8 len := rfl
@[simp] theorem refuseKeySize_eOp (len : Nat) : (refuseKeySize len s).eOp = 0x01#8 := rfl
@[simp] theorem refuseKeySize_base (len : Nat) : (refuseKeySize len s).base = s.base := rfl
@[simp] theorem refuseKeySize_pending (len : Nat) : (refuseKeySize len s).pending = s.pending := rfl
@[simp] theorem refuseKeySize_response (len : Nat) : (refuseKeySize len s).response = s.response := rfl
@[simp] theorem refuseKeySize_master (len : Nat) : (refuseKeySize len s).master = s.master := rfl

/-! `loadKey` -/
@[simp] theorem loadKey_lifecycle : (loadKey s).lifecycle = .keyed := rfl
@[simp] theorem loadKey_r : (loadKey s).r = clampLimbs s.key[0] s.key[1] s.key[2] s.key[3] := rfl
@[simp] theorem loadKey_pad : (loadKey s).pad = #v[s.key[4], s.key[5], s.key[6], s.key[7]] := rfl
@[simp] theorem loadKey_h : (loadKey s).h = Limbs.zero := rfl
@[simp] theorem loadKey_buf : (loadKey s).buf = Block.zero := rfl
@[simp] theorem loadKey_off : (loadKey s).off = 0#4 := rfl
@[simp] theorem loadKey_key : (loadKey s).key = Vector.replicate 8 0#32 := rfl
@[simp] theorem loadKey_din : (loadKey s).din = s.din := rfl
@[simp] theorem loadKey_cand : (loadKey s).cand = s.cand := rfl
@[simp] theorem loadKey_tag : (loadKey s).tag = Words4.zero := rfl
@[simp] theorem loadKey_keyErr : (loadKey s).keyErr = false := rfl
@[simp] theorem loadKey_tagV : (loadKey s).tagV = false := rfl
@[simp] theorem loadKey_vDone : (loadKey s).vDone = false := rfl
@[simp] theorem loadKey_matched : (loadKey s).matched = false := rfl
@[simp] theorem loadKey_eCode : (loadKey s).eCode = .none := rfl
@[simp] theorem loadKey_eLen : (loadKey s).eLen = 0#8 := rfl
@[simp] theorem loadKey_eOp : (loadKey s).eOp = 0#8 := rfl
@[simp] theorem loadKey_base : (loadKey s).base = s.base := rfl
@[simp] theorem loadKey_pending : (loadKey s).pending = s.pending := rfl
@[simp] theorem loadKey_response : (loadKey s).response = s.response := rfl
@[simp] theorem loadKey_master : (loadKey s).master = s.master := rfl

/-! `finishMessage` -/
@[simp] theorem finishMessage_lifecycle : (finishMessage s).lifecycle = .finished := rfl
@[simp] theorem finishMessage_r : (finishMessage s).r = Limbs.zero := rfl
@[simp] theorem finishMessage_pad : (finishMessage s).pad = Words4.zero := rfl
@[simp] theorem finishMessage_h : (finishMessage s).h = Limbs.zero := rfl
@[simp] theorem finishMessage_buf : (finishMessage s).buf = Block.zero := rfl
@[simp] theorem finishMessage_off : (finishMessage s).off = 0#4 := rfl
@[simp] theorem finishMessage_key : (finishMessage s).key = s.key := rfl
@[simp] theorem finishMessage_din : (finishMessage s).din = s.din := rfl
@[simp] theorem finishMessage_cand : (finishMessage s).cand = s.cand := rfl
@[simp] theorem finishMessage_tag : (finishMessage s).tag = s.tagWords := rfl
@[simp] theorem finishMessage_keyErr : (finishMessage s).keyErr = s.keyErr := rfl
@[simp] theorem finishMessage_tagV : (finishMessage s).tagV = true := rfl
@[simp] theorem finishMessage_vDone : (finishMessage s).vDone = false := rfl
@[simp] theorem finishMessage_matched : (finishMessage s).matched = false := rfl
@[simp] theorem finishMessage_eCode : (finishMessage s).eCode = s.eCode := rfl
@[simp] theorem finishMessage_eLen : (finishMessage s).eLen = s.eLen := rfl
@[simp] theorem finishMessage_eOp : (finishMessage s).eOp = s.eOp := rfl
@[simp] theorem finishMessage_base : (finishMessage s).base = s.base := rfl
@[simp] theorem finishMessage_pending : (finishMessage s).pending = s.pending := rfl
@[simp] theorem finishMessage_response : (finishMessage s).response = s.response := rfl
@[simp] theorem finishMessage_master : (finishMessage s).master = s.master := rfl

/-! `verifyMessage` -/
@[simp] theorem verifyMessage_lifecycle : (verifyMessage s).lifecycle = .finished := rfl
@[simp] theorem verifyMessage_r : (verifyMessage s).r = Limbs.zero := rfl
@[simp] theorem verifyMessage_pad : (verifyMessage s).pad = Words4.zero := rfl
@[simp] theorem verifyMessage_h : (verifyMessage s).h = Limbs.zero := rfl
@[simp] theorem verifyMessage_buf : (verifyMessage s).buf = Block.zero := rfl
@[simp] theorem verifyMessage_off : (verifyMessage s).off = 0#4 := rfl
@[simp] theorem verifyMessage_key : (verifyMessage s).key = s.key := rfl
@[simp] theorem verifyMessage_din : (verifyMessage s).din = s.din := rfl
@[simp] theorem verifyMessage_cand : (verifyMessage s).cand = s.cand := rfl
@[simp] theorem verifyMessage_tag : (verifyMessage s).tag = Words4.zero := rfl
@[simp] theorem verifyMessage_keyErr : (verifyMessage s).keyErr = s.keyErr := rfl
@[simp] theorem verifyMessage_tagV : (verifyMessage s).tagV = false := rfl
@[simp] theorem verifyMessage_vDone : (verifyMessage s).vDone = true := rfl
@[simp] theorem verifyMessage_matched : (verifyMessage s).matched = (ctEqual s.tagWords s.cand).getLsbD 0 := rfl
@[simp] theorem verifyMessage_eCode : (verifyMessage s).eCode = s.eCode := rfl
@[simp] theorem verifyMessage_eLen : (verifyMessage s).eLen = s.eLen := rfl
@[simp] theorem verifyMessage_eOp : (verifyMessage s).eOp = s.eOp := rfl
@[simp] theorem verifyMessage_base : (verifyMessage s).base = s.base := rfl
@[simp] theorem verifyMessage_pending : (verifyMessage s).pending = s.pending := rfl
@[simp] theorem verifyMessage_response : (verifyMessage s).response = s.response := rfl
@[simp] theorem verifyMessage_master : (verifyMessage s).master = s.master := rfl

/-! `hardwareReset` -/
@[simp] theorem hardwareReset_lifecycle : (hardwareReset s).lifecycle = State.reset.lifecycle := rfl
@[simp] theorem hardwareReset_r : (hardwareReset s).r = State.reset.r := rfl
@[simp] theorem hardwareReset_pad : (hardwareReset s).pad = State.reset.pad := rfl
@[simp] theorem hardwareReset_h : (hardwareReset s).h = State.reset.h := rfl
@[simp] theorem hardwareReset_buf : (hardwareReset s).buf = State.reset.buf := rfl
@[simp] theorem hardwareReset_off : (hardwareReset s).off = State.reset.off := rfl
@[simp] theorem hardwareReset_key : (hardwareReset s).key = State.reset.key := rfl
@[simp] theorem hardwareReset_din : (hardwareReset s).din = State.reset.din := rfl
@[simp] theorem hardwareReset_cand : (hardwareReset s).cand = State.reset.cand := rfl
@[simp] theorem hardwareReset_tag : (hardwareReset s).tag = State.reset.tag := rfl
@[simp] theorem hardwareReset_keyErr : (hardwareReset s).keyErr = State.reset.keyErr := rfl
@[simp] theorem hardwareReset_tagV : (hardwareReset s).tagV = State.reset.tagV := rfl
@[simp] theorem hardwareReset_vDone : (hardwareReset s).vDone = State.reset.vDone := rfl
@[simp] theorem hardwareReset_matched : (hardwareReset s).matched = State.reset.matched := rfl
@[simp] theorem hardwareReset_eCode : (hardwareReset s).eCode = State.reset.eCode := rfl
@[simp] theorem hardwareReset_eLen : (hardwareReset s).eLen = State.reset.eLen := rfl
@[simp] theorem hardwareReset_eOp : (hardwareReset s).eOp = State.reset.eOp := rfl
@[simp] theorem hardwareReset_base : (hardwareReset s).base = s.base := rfl
@[simp] theorem hardwareReset_pending : (hardwareReset s).pending = s.pending := rfl
@[simp] theorem hardwareReset_response : (hardwareReset s).response = State.reset.response := rfl
@[simp] theorem hardwareReset_master : (hardwareReset s).master = State.reset.master := rfl

/-! `served` -/
@[simp] theorem State.served_lifecycle (m : Nat) (rest : List HostEvent) (resp : BusResponse) : (s.served m rest resp).lifecycle = s.lifecycle := rfl
@[simp] theorem State.served_r (m : Nat) (rest : List HostEvent) (resp : BusResponse) : (s.served m rest resp).r = s.r := rfl
@[simp] theorem State.served_pad (m : Nat) (rest : List HostEvent) (resp : BusResponse) : (s.served m rest resp).pad = s.pad := rfl
@[simp] theorem State.served_h (m : Nat) (rest : List HostEvent) (resp : BusResponse) : (s.served m rest resp).h = s.h := rfl
@[simp] theorem State.served_buf (m : Nat) (rest : List HostEvent) (resp : BusResponse) : (s.served m rest resp).buf = s.buf := rfl
@[simp] theorem State.served_off (m : Nat) (rest : List HostEvent) (resp : BusResponse) : (s.served m rest resp).off = s.off := rfl
@[simp] theorem State.served_key (m : Nat) (rest : List HostEvent) (resp : BusResponse) : (s.served m rest resp).key = s.key := rfl
@[simp] theorem State.served_din (m : Nat) (rest : List HostEvent) (resp : BusResponse) : (s.served m rest resp).din = s.din := rfl
@[simp] theorem State.served_cand (m : Nat) (rest : List HostEvent) (resp : BusResponse) : (s.served m rest resp).cand = s.cand := rfl
@[simp] theorem State.served_tag (m : Nat) (rest : List HostEvent) (resp : BusResponse) : (s.served m rest resp).tag = s.tag := rfl
@[simp] theorem State.served_keyErr (m : Nat) (rest : List HostEvent) (resp : BusResponse) : (s.served m rest resp).keyErr = s.keyErr := rfl
@[simp] theorem State.served_tagV (m : Nat) (rest : List HostEvent) (resp : BusResponse) : (s.served m rest resp).tagV = s.tagV := rfl
@[simp] theorem State.served_vDone (m : Nat) (rest : List HostEvent) (resp : BusResponse) : (s.served m rest resp).vDone = s.vDone := rfl
@[simp] theorem State.served_matched (m : Nat) (rest : List HostEvent) (resp : BusResponse) : (s.served m rest resp).matched = s.matched := rfl
@[simp] theorem State.served_eCode (m : Nat) (rest : List HostEvent) (resp : BusResponse) : (s.served m rest resp).eCode = s.eCode := rfl
@[simp] theorem State.served_eLen (m : Nat) (rest : List HostEvent) (resp : BusResponse) : (s.served m rest resp).eLen = s.eLen := rfl
@[simp] theorem State.served_eOp (m : Nat) (rest : List HostEvent) (resp : BusResponse) : (s.served m rest resp).eOp = s.eOp := rfl
@[simp] theorem State.served_base (m : Nat) (rest : List HostEvent) (resp : BusResponse) : (s.served m rest resp).base = s.base := rfl
@[simp] theorem State.served_pending (m : Nat) (rest : List HostEvent) (resp : BusResponse) : (s.served m rest resp).pending = rest := rfl
@[simp] theorem State.served_response (m : Nat) (rest : List HostEvent) (resp : BusResponse) : (s.served m rest resp).response = some resp := rfl
@[simp] theorem State.served_master (m : Nat) (rest : List HostEvent) (resp : BusResponse) : (s.served m rest resp).master = some m := rfl

/-! `State.reset`: the values of 10_state.md R38 -/
@[simp] theorem State.reset_lifecycle : State.reset.lifecycle = .idle := rfl
@[simp] theorem State.reset_r : State.reset.r = Limbs.zero := rfl
@[simp] theorem State.reset_pad : State.reset.pad = Words4.zero := rfl
@[simp] theorem State.reset_h : State.reset.h = Limbs.zero := rfl
@[simp] theorem State.reset_buf : State.reset.buf = Block.zero := rfl
@[simp] theorem State.reset_off : State.reset.off = 0#4 := rfl
@[simp] theorem State.reset_key : State.reset.key = Vector.replicate 8 0#32 := rfl
@[simp] theorem State.reset_din : State.reset.din = Words4.zero := rfl
@[simp] theorem State.reset_cand : State.reset.cand = Words4.zero := rfl
@[simp] theorem State.reset_tag : State.reset.tag = Words4.zero := rfl
@[simp] theorem State.reset_keyErr : State.reset.keyErr = false := rfl
@[simp] theorem State.reset_tagV : State.reset.tagV = false := rfl
@[simp] theorem State.reset_vDone : State.reset.vDone = false := rfl
@[simp] theorem State.reset_matched : State.reset.matched = false := rfl
@[simp] theorem State.reset_eCode : State.reset.eCode = .none := rfl
@[simp] theorem State.reset_eLen : State.reset.eLen = 0#8 := rfl
@[simp] theorem State.reset_eOp : State.reset.eOp = 0#8 := rfl
@[simp] theorem State.reset_pending : State.reset.pending = [] := rfl
@[simp] theorem State.reset_response : State.reset.response = none := rfl
@[simp] theorem State.reset_master : State.reset.master = none := rfl

/-! `absorbByte` writes BUF, OFF and H alone (41_update.md R121) -/
@[simp] theorem absorbByte_lifecycle (b : Byte) : (absorbByte s b).lifecycle = s.lifecycle := by
  simp only [absorbByte]; split <;> rfl
@[simp] theorem absorbByte_r (b : Byte) : (absorbByte s b).r = s.r := by
  simp only [absorbByte]; split <;> rfl
@[simp] theorem absorbByte_pad (b : Byte) : (absorbByte s b).pad = s.pad := by
  simp only [absorbByte]; split <;> rfl
@[simp] theorem absorbByte_key (b : Byte) : (absorbByte s b).key = s.key := by
  simp only [absorbByte]; split <;> rfl
@[simp] theorem absorbByte_din (b : Byte) : (absorbByte s b).din = s.din := by
  simp only [absorbByte]; split <;> rfl
@[simp] theorem absorbByte_cand (b : Byte) : (absorbByte s b).cand = s.cand := by
  simp only [absorbByte]; split <;> rfl
@[simp] theorem absorbByte_tag (b : Byte) : (absorbByte s b).tag = s.tag := by
  simp only [absorbByte]; split <;> rfl
@[simp] theorem absorbByte_keyErr (b : Byte) : (absorbByte s b).keyErr = s.keyErr := by
  simp only [absorbByte]; split <;> rfl
@[simp] theorem absorbByte_tagV (b : Byte) : (absorbByte s b).tagV = s.tagV := by
  simp only [absorbByte]; split <;> rfl
@[simp] theorem absorbByte_vDone (b : Byte) : (absorbByte s b).vDone = s.vDone := by
  simp only [absorbByte]; split <;> rfl
@[simp] theorem absorbByte_matched (b : Byte) : (absorbByte s b).matched = s.matched := by
  simp only [absorbByte]; split <;> rfl
@[simp] theorem absorbByte_eCode (b : Byte) : (absorbByte s b).eCode = s.eCode := by
  simp only [absorbByte]; split <;> rfl
@[simp] theorem absorbByte_eLen (b : Byte) : (absorbByte s b).eLen = s.eLen := by
  simp only [absorbByte]; split <;> rfl
@[simp] theorem absorbByte_eOp (b : Byte) : (absorbByte s b).eOp = s.eOp := by
  simp only [absorbByte]; split <;> rfl
@[simp] theorem absorbByte_base (b : Byte) : (absorbByte s b).base = s.base := by
  simp only [absorbByte]; split <;> rfl
@[simp] theorem absorbByte_pending (b : Byte) : (absorbByte s b).pending = s.pending := by
  simp only [absorbByte]; split <;> rfl
@[simp] theorem absorbByte_response (b : Byte) : (absorbByte s b).response = s.response := by
  simp only [absorbByte]; split <;> rfl
@[simp] theorem absorbByte_master (b : Byte) : (absorbByte s b).master = s.master := by
  simp only [absorbByte]; split <;> rfl

/-- A field that one absorbed byte leaves alone is left alone by any number of them. -/
theorem absorb_field {α : Type} (f : State → α) (hf : ∀ t b, f (absorbByte t b) = f t) (s : State) (bytes : List Byte) :
    f (absorb s bytes) = f s := by
  induction bytes generalizing s with
  | nil => rfl
  | cons b bs ih => exact (ih (absorbByte s b)).trans (hf s b)

/-! `absorb` likewise -/
@[simp] theorem absorb_lifecycle (bytes : List Byte) : (absorb s bytes).lifecycle = s.lifecycle :=
  absorb_field State.lifecycle (fun t b => absorbByte_lifecycle t b) s bytes
@[simp] theorem absorb_r (bytes : List Byte) : (absorb s bytes).r = s.r :=
  absorb_field State.r (fun t b => absorbByte_r t b) s bytes
@[simp] theorem absorb_pad (bytes : List Byte) : (absorb s bytes).pad = s.pad :=
  absorb_field State.pad (fun t b => absorbByte_pad t b) s bytes
@[simp] theorem absorb_key (bytes : List Byte) : (absorb s bytes).key = s.key :=
  absorb_field State.key (fun t b => absorbByte_key t b) s bytes
@[simp] theorem absorb_din (bytes : List Byte) : (absorb s bytes).din = s.din :=
  absorb_field State.din (fun t b => absorbByte_din t b) s bytes
@[simp] theorem absorb_cand (bytes : List Byte) : (absorb s bytes).cand = s.cand :=
  absorb_field State.cand (fun t b => absorbByte_cand t b) s bytes
@[simp] theorem absorb_tag (bytes : List Byte) : (absorb s bytes).tag = s.tag :=
  absorb_field State.tag (fun t b => absorbByte_tag t b) s bytes
@[simp] theorem absorb_keyErr (bytes : List Byte) : (absorb s bytes).keyErr = s.keyErr :=
  absorb_field State.keyErr (fun t b => absorbByte_keyErr t b) s bytes
@[simp] theorem absorb_tagV (bytes : List Byte) : (absorb s bytes).tagV = s.tagV :=
  absorb_field State.tagV (fun t b => absorbByte_tagV t b) s bytes
@[simp] theorem absorb_vDone (bytes : List Byte) : (absorb s bytes).vDone = s.vDone :=
  absorb_field State.vDone (fun t b => absorbByte_vDone t b) s bytes
@[simp] theorem absorb_matched (bytes : List Byte) : (absorb s bytes).matched = s.matched :=
  absorb_field State.matched (fun t b => absorbByte_matched t b) s bytes
@[simp] theorem absorb_eCode (bytes : List Byte) : (absorb s bytes).eCode = s.eCode :=
  absorb_field State.eCode (fun t b => absorbByte_eCode t b) s bytes
@[simp] theorem absorb_eLen (bytes : List Byte) : (absorb s bytes).eLen = s.eLen :=
  absorb_field State.eLen (fun t b => absorbByte_eLen t b) s bytes
@[simp] theorem absorb_eOp (bytes : List Byte) : (absorb s bytes).eOp = s.eOp :=
  absorb_field State.eOp (fun t b => absorbByte_eOp t b) s bytes
@[simp] theorem absorb_base (bytes : List Byte) : (absorb s bytes).base = s.base :=
  absorb_field State.base (fun t b => absorbByte_base t b) s bytes
@[simp] theorem absorb_pending (bytes : List Byte) : (absorb s bytes).pending = s.pending :=
  absorb_field State.pending (fun t b => absorbByte_pending t b) s bytes
@[simp] theorem absorb_response (bytes : List Byte) : (absorb s bytes).response = s.response :=
  absorb_field State.response (fun t b => absorbByte_response t b) s bytes
@[simp] theorem absorb_master (bytes : List Byte) : (absorb s bytes).master = s.master :=
  absorb_field State.master (fun t b => absorbByte_master t b) s bytes

end Sys2Proof.Machine
end

