-- ==== Sys2Proof/Laws/Exec.lean ====
section
/-! SUPPORT. Once and for all: what a shared operation gives in each lifecycle state, what a command can do (`Effect`, with the
equation of each meaning), and what a step can do. Later proofs cite these and unfold no meaning. -/

namespace Sys2Proof.Machine

/-! The lifecycle checks -/

theorem unlessFatal_of_ne {s k : State} (h : s.lifecycle ≠ .fatal) : unlessFatal s k = k := by
  cases hl : s.lifecycle <;> simp_all [unlessFatal]

theorem unlessFatal_of_fatal {s k : State} (h : s.lifecycle = .fatal) : unlessFatal s k = s := by
  simp [unlessFatal, h]

theorem whenKeyed_idle {op : Byte} {s k : State} (h : s.lifecycle = .idle) :
    whenKeyed op s k = enterFatal .notKeyed op 0 s := by simp [whenKeyed, h]

theorem whenKeyed_keyed {op : Byte} {s k : State} (h : s.lifecycle = .keyed) : whenKeyed op s k = k := by
  simp [whenKeyed, h]

theorem whenKeyed_finished {op : Byte} {s k : State} (h : s.lifecycle = .finished) :
    whenKeyed op s k = enterFatal .consumed op 0 s := by simp [whenKeyed, h]

theorem whenKeyed_fatal {op : Byte} {s k : State} (h : s.lifecycle = .fatal) : whenKeyed op s k = s := by
  simp [whenKeyed, h]

/-! Absorbing bytes -/

theorem absorb_nil (s : State) : absorb s [] = s := rfl

theorem absorb_cons (s : State) (b : Byte) (bs : List Byte) : absorb s (b :: bs) = absorb (absorbByte s b) bs := rfl

theorem absorb_append (s : State) (xs ys : List Byte) : absorb s (xs ++ ys) = absorb (absorb s xs) ys :=
  List.foldl_append ..

/-- A property that one absorbed byte keeps is kept by any number of them. -/
theorem absorb_keeps (P : State → Prop) (hP : ∀ t b, P t → P (absorbByte t b)) (s : State) (bytes : List Byte) (h : P s) :
    P (absorb s bytes) := by
  induction bytes generalizing s with
  | nil => exact h
  | cons b bs ih => exact ih _ (hP s b h)

/-! What a command can do -/

/-- Everything a command can do to a state, one case per line of the check order of 60_exceptions.md R202 that a decoded command can
meet. -/
inductive Effect : Instr → State → State → Prop
  | ignored {i s} (hf : s.lifecycle = .fatal) : Effect i s s
  | nothing {s} : Effect .nop s s
  | loaded {s} (hf : s.lifecycle ≠ .fatal) : Effect (.init 32) s (loadKey s)
  | keySize {n s} (hn : n ≠ 32) (hf : s.lifecycle ≠ .fatal) : Effect (.init n) s (refuseKeySize n s)
  | badLen {n s} (hn : 16 < n) (hf : s.lifecycle ≠ .fatal) : Effect (.update n) s (enterFatal .badLen 0x02#8 n s)
  | notKeyed {i s} (hi : usesOpenMessage i) (hl : s.lifecycle = .idle) : Effect i s (enterFatal .notKeyed i.op 0 s)
  | consumed {i s} (hi : usesOpenMessage i) (hl : s.lifecycle = .finished) : Effect i s (enterFatal .consumed i.op 0 s)
  | absorbed {n s} (hn : n ≤ 16) (hl : s.lifecycle = .keyed) : Effect (.update n) s (absorb s (chunk n s.din))
  | finished {s} (hl : s.lifecycle = .keyed) : Effect .finish s (finishMessage s)
  | verified {s} (hl : s.lifecycle = .keyed) : Effect .verify s (verifyMessage s)
  | forbidden {n s} (hf : s.lifecycle ≠ .fatal) : Effect (.reset n) s (enterFatal .resetForbidden 0x05#8 n s)

/-- The state a command leaves, and what it is: no command faults or is refused. -/
theorem exec_effect (i : Instr) (s : State) : ∃ t, exec i s = .next t ∧ Effect i s t := by
  by_cases hf : s.lifecycle = .fatal
  · refine ⟨s, ?_, .ignored hf⟩
    cases i <;>
      simp [exec, execNop, execInit, execUpdate, execFinish, execVerify, execReset, unlessFatal_of_fatal hf, whenKeyed_fatal hf]
  · cases i with
    | nop => exact ⟨s, rfl, .nothing⟩
    | init n =>
      by_cases hn : n = 32
      · subst hn
        exact ⟨loadKey s, by simp [exec, execInit, Config.keyLen, unlessFatal_of_ne hf], .loaded hf⟩
      · exact ⟨refuseKeySize n s, by simp [exec, execInit, Config.keyLen, unlessFatal_of_ne hf, hn], .keySize hn hf⟩
    | update n =>
      by_cases hn : 16 < n
      · exact ⟨_, by simp only [exec, execUpdate, Config.blockLen, unlessFatal_of_ne hf, hn, if_true], .badLen hn hf⟩
      · cases hl : s.lifecycle with
        | idle => exact ⟨_, by simp only [exec, execUpdate, Config.blockLen, unlessFatal_of_ne hf, if_neg hn, whenKeyed_idle hl, Instr.op],
            .notKeyed (i := .update n) (Nat.le_of_not_lt hn) hl⟩
        | keyed => exact ⟨_, by simp only [exec, execUpdate, Config.blockLen, unlessFatal_of_ne hf, if_neg hn, whenKeyed_keyed hl],
            .absorbed (Nat.le_of_not_lt hn) hl⟩
        | finished => exact ⟨_, by simp only [exec, execUpdate, Config.blockLen, unlessFatal_of_ne hf, if_neg hn,
            whenKeyed_finished hl, Instr.op], .consumed (i := .update n) (Nat.le_of_not_lt hn) hl⟩
        | fatal => exact absurd hl hf
    | finish =>
      cases hl : s.lifecycle with
      | idle => exact ⟨_, by simp only [exec, execFinish, whenKeyed_idle hl, Instr.op], .notKeyed (i := .finish) trivial hl⟩
      | keyed => exact ⟨_, by simp only [exec, execFinish, whenKeyed_keyed hl], .finished hl⟩
      | finished => exact ⟨_, by simp only [exec, execFinish, whenKeyed_finished hl, Instr.op], .consumed (i := .finish) trivial hl⟩
      | fatal => exact absurd hl hf
    | verify =>
      cases hl : s.lifecycle with
      | idle => exact ⟨_, by simp only [exec, execVerify, whenKeyed_idle hl, Instr.op], .notKeyed (i := .verify) trivial hl⟩
      | keyed => exact ⟨_, by simp only [exec, execVerify, whenKeyed_keyed hl], .verified hl⟩
      | finished => exact ⟨_, by simp only [exec, execVerify, whenKeyed_finished hl, Instr.op], .consumed (i := .verify) trivial hl⟩
      | fatal => exact absurd hl hf
    | reset n => exact ⟨_, by simp only [exec, execReset, unlessFatal_of_ne hf], .forbidden hf⟩

/-- The inversion lemma of `exec`. -/
theorem effect_of_exec {i : Instr} {s t : State} (h : exec i s = .next t) : Effect i s t := by
  obtain ⟨u, hu, he⟩ := exec_effect i s
  rw [hu] at h
  cases h
  exact he

/-- The other way round: what `Effect` lists is what `exec` does. -/
theorem exec_of_effect {i : Instr} {s t : State} (h : Effect i s t) : exec i s = .next t := by
  cases h with
  | ignored hf =>
    cases i <;>
      simp [exec, execNop, execInit, execUpdate, execFinish, execVerify, execReset, unlessFatal_of_fatal hf, whenKeyed_fatal hf]
  | nothing => rfl
  | loaded hf => simp [exec, execInit, Config.keyLen, unlessFatal_of_ne hf]
  | keySize hn hf => simp [exec, execInit, Config.keyLen, unlessFatal_of_ne hf, hn]
  | badLen hn hf => simp only [exec, execUpdate, Config.blockLen, unlessFatal_of_ne hf, hn, if_true]
  | absorbed hn hl =>
    simp only [exec, execUpdate, Config.blockLen, if_neg (Nat.not_lt.mpr hn), whenKeyed_keyed hl,
      unlessFatal_of_ne (s := s) (by simp [hl])]
  | finished hl => simp only [exec, execFinish, whenKeyed_keyed hl]
  | verified hl => simp only [exec, execVerify, whenKeyed_keyed hl]
  | forbidden hf => simp only [exec, execReset, unlessFatal_of_ne hf]
  | notKeyed hi hl =>
    cases i <;> simp only [usesOpenMessage] at hi <;>
      simp [exec, execUpdate, execFinish, execVerify, whenKeyed_idle hl, Instr.op, Config.blockLen, unlessFatal_of_ne, hl, hi]
  | consumed hi hl =>
    cases i <;> simp only [usesOpenMessage] at hi <;>
      simp [exec, execUpdate, execFinish, execVerify, whenKeyed_finished hl, Instr.op, Config.blockLen, unlessFatal_of_ne, hl, hi]

/-- A word that decodes to no command. -/
theorem illegalWord_of_ne {op : Byte} {s : State} (h : s.lifecycle ≠ .fatal) :
    illegalWord op s = enterFatal .illegalCmd op 0 s := unlessFatal_of_ne h

theorem illegalWord_of_fatal {op : Byte} {s : State} (h : s.lifecycle = .fatal) : illegalWord op s = s :=
  unlessFatal_of_fatal h

/-! What a step can do -/

/-- The step of an access that is in the window and comes from the one host. -/
theorem step_about {s : State} {a : BusAccess} {o : Nat} {rest : List HostEvent} (h : s.about a o rest) :
    step s = windowAccess o a { s with pending := rest, master := some a.master } := by
  obtain ⟨h1, h2, h3, h4⟩ := h
  have hw : windowOffset s.base a.addr = some o := by
    unfold windowOffset
    rw [if_pos (by simp only [Config.windowSize]; omega)]
    congr 1
    omega
  have ha : ∀ r, admits { s with pending := r } a.master = true := by
    intro r
    rcases h4 with h4 | h4 <;> simp [admits, h4]
  simp only [step, stepPending, h1, performEvent, busAccess, hw, ha, if_true]

/-- Everything a step that gives a next state can do. -/
inductive StepEffect : State → State → Prop
  | idle {s} (h : s.pending = []) : StepEffect s s
  | hardwareReset {s rest} (h : s.pending = .hardwareReset :: rest ∨ s.pending = .powerDown :: rest) :
      StepEffect s (hardwareReset { s with pending := rest })
  | answered {s a rest resp} (h : s.pending = .access a :: rest) : StepEffect s (s.served a.master rest resp)
  | keyWritten {s a rest resp j v} (h : s.pending = .access a :: rest) :
      StepEffect s { s.served a.master rest resp with key := s.key.set (j : Fin 8) v }
  | dinWritten {s a rest resp j v} (h : s.pending = .access a :: rest) :
      StepEffect s { s.served a.master rest resp with din := s.din.set (j : Fin 4) v }
  | candWritten {s a rest resp j v} (h : s.pending = .access a :: rest) :
      StepEffect s { s.served a.master rest resp with cand := s.cand.set (j : Fin 4) v }
  | command {s a rest resp w i t} (h : s.pending = .access a :: rest) (hd : decode w = .ok i)
      (he : Effect i (s.served a.master rest resp) t) : StepEffect s t
  | illegal {s a rest resp w e} (h : s.pending = .access a :: rest) (hd : decode w = .error e) :
      StepEffect s (illegalWord (opField w) (s.served a.master rest resp))

/-- The inversion lemma of `step`. -/
theorem stepEffect_of_step {s t : State} (h : step s = .next t) : StepEffect s t := by
  unfold step stepPending at h
  cases hp : s.pending with
  | nil => rw [hp] at h; cases h; exact .idle hp
  | cons e rest =>
    rw [hp] at h
    cases e with
    | hardwareReset => cases h; exact .hardwareReset (.inl hp)
    | powerDown => cases h; exact .hardwareReset (.inr hp)
    | access a =>
      simp only [performEvent, busAccess] at h
      split at h
      · cases h
      split at h
      rotate_left
      · cases h
      simp only [windowAccess] at h
      split at h
      rotate_left
      · cases h; exact .answered hp
      split at h
      · cases h; exact .answered hp
      · unfold writeReg at h
        split at h
        · unfold issueCommand at h
          split at h
          · rename_i hd; exact .command hp hd (effect_of_exec h)
          · rename_i hd; cases h; exact .illegal hp hd
        · cases h; exact .answered hp
        · cases h; exact .answered hp
        · cases h; exact .keyWritten hp
        · cases h; exact .dinWritten hp
        · cases h; exact .candWritten hp
        · cases h; exact .answered hp
        · cases h; exact .answered hp

/-- A decoded LEN fits its 8-bit field. -/
theorem decode_len_lt {w : Word} {i : Instr} (h : decode w = .ok i) : i.len < 256 := by
  have hl : lenField w < 256 := (w.extractLsb' 8 8).isLt
  unfold decode noOperand at h
  repeat' (split at h)
  all_goals (first | (cases h; done) | (injection h with h; subst h; simp only [Instr.len]; omega))

end Sys2Proof.Machine
end

