-- ==== Sys2Proof/Laws/Words.lean ====
section
/-! SUPPORT. What the word operations of the datapath do to values: each pushes a bit operation down to arithmetic on naturals. -/

namespace Sys2Proof.Machine

/-- Masking to a limb is the remainder modulo 2^26. -/
@[simp] theorem and_limbMask_toNat (x : Word) : (x &&& Config.limbMask).toNat = x.toNat % 2 ^ 26 := by
  rw [BitVec.toNat_and]
  exact Nat.and_two_pow_sub_one_eq_mod x.toNat 26

/-- `lo32` is the remainder modulo 2^32. -/
@[simp] theorem lo32_toNat (v : DWord) : (lo32 v).toNat = v.toNat % 2 ^ 32 := by simp [lo32]

/-- The full product loses nothing. -/
@[simp] theorem mul64_toNat (a b : Word) : (mul64 a b).toNat = a.toNat * b.toNat := by
  have ha : a.toNat < 2 ^ 32 := a.isLt
  have hb : b.toNat < 2 ^ 32 := b.isLt
  have h : a.toNat * b.toNat < 2 ^ 64 := by
    calc a.toNat * b.toNat ≤ (2 ^ 32 - 1) * (2 ^ 32 - 1) := Nat.mul_le_mul (by omega) (by omega)
      _ < 2 ^ 64 := by norm_num
  simp only [mul64, BitVec.toNat_mul, BitVec.toNat_setWidth]
  rw [Nat.mod_eq_of_lt (by omega : a.toNat < 2 ^ 64), Nat.mod_eq_of_lt (by omega : b.toNat < 2 ^ 64),
    Nat.mod_eq_of_lt h]

/-- Appending two words puts the right one in the low bits. -/
theorem append_toNat {m n : Nat} (x : BitVec m) (y : BitVec n) : (x ++ y).toNat = 2 ^ n * x.toNat + y.toNat := by
  rw [BitVec.toNat_append, Nat.shiftLeft_eq, Nat.mul_comm, Nat.two_pow_add_eq_or_of_lt y.isLt]

/-- A little-endian word is the sum of its weighted bytes. -/
theorem le32_toNat (b0 b1 b2 b3 : Byte) :
    (le32 b0 b1 b2 b3).toNat = b0.toNat + 2 ^ 8 * b1.toNat + 2 ^ 16 * b2.toNat + 2 ^ 24 * b3.toNat := by
  simp only [le32, append_toNat]
  omega

/-- Or-ing a value below 2^n onto a multiple of 2^n adds it. -/
theorem or_eq_add_of_lt (x y n : Nat) (hy : y < 2 ^ n) : y ||| 2 ^ n * x = y + 2 ^ n * x := by
  rw [Nat.or_comm, ← Nat.two_pow_add_eq_or_of_lt hy, Nat.add_comm]

/-- A word made of the high bits of `x` and the low bits of `y` above them. -/
theorem shift_pair_toNat (x y : Word) (a b : Nat) (h : a + b = 32) :
    ((x >>> a) ||| (y <<< b)).toNat = x.toNat / 2 ^ a + 2 ^ b * (y.toNat % 2 ^ a) := by
  have hx : x.toNat / 2 ^ a < 2 ^ b := by
    rw [Nat.div_lt_iff_lt_mul (by positivity), ← pow_add, Nat.add_comm b a, h]
    exact x.isLt
  have hs : (y <<< b).toNat = 2 ^ b * (y.toNat % 2 ^ a) := by
    have hp : (2 : Nat) ^ 32 = 2 ^ b * 2 ^ a := by rw [← pow_add, Nat.add_comm b a, h]
    rw [BitVec.toNat_shiftLeft, Nat.shiftLeft_eq, Nat.mul_comm, hp, Nat.mul_mod_mul_left]
  rw [BitVec.toNat_or, hs, BitVec.toNat_ushiftRight, Nat.shiftRight_eq_div_pow, or_eq_add_of_lt _ _ _ hx]

/-- A u32 addition that does not wrap. -/
theorem add_toNat32 (x y : Word) (h : x.toNat + y.toNat < 2 ^ 32) : (x + y).toNat = x.toNat + y.toNat := by
  rw [BitVec.toNat_add, Nat.mod_eq_of_lt h]

/-- A u64 addition that does not wrap. -/
theorem add_toNat64 (x y : DWord) (h : x.toNat + y.toNat < 2 ^ 64) : (x + y).toNat = x.toNat + y.toNat := by
  rw [BitVec.toNat_add, Nat.mod_eq_of_lt h]

/-- The carry out of a u32 limb. -/
theorem limbCarry_toNat (x : Word) : (x >>> 26).toNat = x.toNat / 2 ^ 26 := by
  simp [Nat.shiftRight_eq_div_pow]

/-- The carry out of a u64 sum. -/
theorem sumCarry_toNat (x : DWord) : (x >>> 26).toNat = x.toNat / 2 ^ 26 := by
  simp [Nat.shiftRight_eq_div_pow]

/-- A helper term loses nothing while the limb is below 2^29 (41_update.md R128). -/
theorem times5_toNat (x : Word) (h : x.toNat < 2 ^ 29) : (times5 x).toNat = 5 * x.toNat := by
  simp only [times5, BitVec.toNat_mul, BitVec.toNat_ofNat]
  omega

/-- An all-zero mask selects the first value. -/
@[simp] theorem select_zeros (x y : Word) : select 0#32 x y = x := by
  simp only [select, BitVec.and_zero, BitVec.or_zero]
  exact BitVec.and_allOnes

/-- An all-ones mask selects the second value. -/
@[simp] theorem select_ones (x y : Word) : select 0xffffffff#32 x y = y := by
  have h : ~~~(0xffffffff#32) = 0#32 := rfl
  simp only [select, h, BitVec.and_zero, BitVec.zero_or]
  exact BitVec.and_allOnes

end Sys2Proof.Machine
end

