-- ==== Sys2Proof/Laws/PerInstr.lean ====
section
/-! SUPPORT. Per command, as syntax: the three fields of its word (30_encoding.md R80, R81) are its opcode, its LEN and zero. -/

namespace Sys2Proof.Laws.EncodedFields

open Sys2Proof Sys2Proof.Machine

/-- The fields of the word of a well-formed command. -/
def Statement (i : Instr) : Prop :=
  i.wellFormed = true → rsvField (encode i) = 0#16 ∧ lenField (encode i) = i.len ∧ opField (encode i) = i.op

/-- A well-formed command's LEN fits its 8-bit field. -/
theorem len_lt {i : Instr} (h : i.wellFormed = true) : i.len < 256 := by
  cases i <;> simp_all [Instr.wellFormed, Instr.len]

/-- The three fields of a word put together by the encoder. -/
theorem of_len_lt {i : Instr} (h : i.len < 256) :
    rsvField (encode i) = 0#16 ∧ lenField (encode i) = i.len ∧ opField (encode i) = i.op := by
  have ho := i.op.isLt
  refine ⟨BitVec.eq_of_toNat_eq ?_, ?_, BitVec.eq_of_toNat_eq ?_⟩ <;>
    (simp only [rsvField, lenField, opField, encode, append_toNat, BitVec.extractLsb'_toNat, Nat.shiftRight_eq_div_pow,
      BitVec.toNat_ofNat]; omega)

theorem nop : Statement .nop := fun h => of_len_lt (len_lt h)

theorem init (n : Nat) : Statement (.init n) := fun h => of_len_lt (len_lt h)

theorem update (n : Nat) : Statement (.update n) := fun h => of_len_lt (len_lt h)

theorem finish : Statement .finish := fun h => of_len_lt (len_lt h)

theorem verify : Statement .verify := fun h => of_len_lt (len_lt h)

theorem reset (n : Nat) : Statement (.reset n) := fun h => of_len_lt (len_lt h)

end Sys2Proof.Laws.EncodedFields
end

