-- ==== Sys2Proof/Laws/Values.lean ====
section
/-! SUPPORT. The values of byte and word sequences, and of the limbs taken from words. -/

namespace Sys2Proof.Machine

/-- A block as the list of its bytes. -/
theorem block_toList (b : Block) : b.toList =
    [b[0], b[1], b[2], b[3], b[4], b[5], b[6], b[7], b[8], b[9], b[10], b[11], b[12], b[13], b[14], b[15]] := by
  apply List.ext_getElem
  · simp
  · intro i h1 h2
    simp only [Vector.getElem_toList]
    simp only [Vector.length_toList] at h1
    interval_cases i <;> simp only [List.getElem_cons_succ, List.getElem_cons_zero]

/-- Four words as the list of them. -/
theorem words4_toList (v : Words4) : v.toList = [v[0], v[1], v[2], v[3]] := by
  apply List.ext_getElem
  · simp
  · intro i h1 h2
    simp only [Vector.getElem_toList]
    simp only [Vector.length_toList] at h1
    interval_cases i <;> simp only [List.getElem_cons_succ, List.getElem_cons_zero]

/-- The value of sixteen bytes is the value of their four little-endian words. -/
theorem leNat_sixteen (a b c d e f g h i j k l m n o p : Byte) :
    leNat [a, b, c, d, e, f, g, h, i, j, k, l, m, n, o, p] =
      leWords [le32 a b c d, le32 e f g h, le32 i j k l, le32 m n o p] := by
  simp only [leNat, leWords, le32_toNat]
  omega

/-- The value of a block is the value of its four words. -/
theorem leNat_block (b : Block) : leNat b.toList =
    leWords [le32 b[0] b[1] b[2] b[3], le32 b[4] b[5] b[6] b[7], le32 b[8] b[9] b[10] b[11],
      le32 b[12] b[13] b[14] b[15]] := by
  rw [block_toList, leNat_sixteen]

/-- Four words hold a value below 2^128. -/
theorem leWords_four_lt (a b c d : Word) : leWords [a, b, c, d] < 2 ^ 128 := by
  have ha := a.isLt
  have hb := b.isLt
  have hc := c.isLt
  have hd := d.isLt
  simp only [leWords]
  omega

/-- The limbs of four words are the 26-bit slices of their value. -/
theorem limbsOfWords_toNat (t0 t1 t2 t3 hibit : Word) :
    (limbsOfWords t0 t1 t2 t3 hibit).l0.toNat = leWords [t0, t1, t2, t3] % 2 ^ 26 ∧
      (limbsOfWords t0 t1 t2 t3 hibit).l1.toNat = leWords [t0, t1, t2, t3] / 2 ^ 26 % 2 ^ 26 ∧
      (limbsOfWords t0 t1 t2 t3 hibit).l2.toNat = leWords [t0, t1, t2, t3] / 2 ^ 52 % 2 ^ 26 ∧
      (limbsOfWords t0 t1 t2 t3 hibit).l3.toNat = leWords [t0, t1, t2, t3] / 2 ^ 78 % 2 ^ 26 ∧
      (limbsOfWords t0 t1 t2 t3 hibit).l4.toNat = leWords [t0, t1, t2, t3] / 2 ^ 104 ||| hibit.toNat := by
  have h0 := t0.isLt
  have h1 := t1.isLt
  have h2 := t2.isLt
  have h3 := t3.isLt
  simp only [limbsOfWords, and_limbMask_toNat, shift_pair_toNat _ _ 26 6 rfl, shift_pair_toNat _ _ 20 12 rfl,
    shift_pair_toNat _ _ 14 18 rfl, BitVec.toNat_or, BitVec.toNat_ushiftRight, Nat.shiftRight_eq_div_pow, leWords]
  refine ⟨by omega, by omega, by omega, by omega, ?_⟩
  congr 1
  omega

/-- A value below 2^24 with the full-block flag, or with no flag, or'ed on. -/
theorem or_hibit (x : Nat) (hx : x < 2 ^ 24) (hibit : Word) (hh : hibit = 0#32 ∨ hibit = Config.fullBlockFlag) :
    x ||| hibit.toNat = x + hibit.toNat := by
  rcases hh with rfl | rfl
  · simp
  · exact or_eq_add_of_lt 1 x 24 hx

end Sys2Proof.Machine
end

