-- ==== Sys2Proof/Tests/Slice0.lean ====
section
/-! SUPPORT. The model's own tests. Expected values come from the words of 30_encoding.md, the vectors of 95_test_vectors.md (named in
each comment) and the rules cited; and for each statement with hypotheses a witness that meets them. -/

namespace Sys2Proof.Tests.Slice0

open Sys2Proof Sys2Proof.Machine

/-- The state an outcome goes on with, if it goes on. -/
def after (o : Host.Outcome State Fault Refusal) : Option State :=
  match o with
  | .next s => some s
  | .fault _ => none
  | .refused _ => none

/-- STATUS and ERRINFO of the state an outcome goes on with. -/
def flagsAfter (o : Host.Outcome State Fault Refusal) : Option (Word × Word) :=
  (after o).map fun s => (readReg .status s, readReg .errInfo s)

/-- The state of 95_test_vectors.md section 3.8 called IDLE: reset, with the key kRFC written. -/
def idleRfc : State :=
  { State.reset with key := #v[0x78bed685, 0x336d5557, 0xfe52447f, 0xa806d542, 0x8a800301, 0xfdb20dfb, 0xaff6bf4a, 0x1bf54941] }

/-- A KEYED state with the multiplier and pad of V-INIT-2, a given accumulator, buffer and fill. -/
def keyedRfc (h : Limbs) (buf : Block) (off : BitVec 4) : State :=
  { State.reset with
    lifecycle := .keyed, r := ⟨0x0bed685, 0x3555502, 0x047c036, 0x1003949, 0x00806d5⟩
    pad := #v[0x8a800301, 0xfdb20dfb, 0xaff6bf4a, 0x1bf54941], h := h, buf := buf, off := off }

/-- The state before FINISH in V-FIN-1, with the candidate of V-VER-1. -/
def lastRfc : State :=
  { keyedRfc ⟨0x04b30de, 0x3ed3a8d, 0x3fa7ccc, 0x08ec0cd, 0x2d8adaf⟩ ((Block.zero.set 0 0x75).set 1 0x70) 2 with
    cand := #v[0xc11d06a8, 0xc6365130, 0xaf8b2bc2, 0xa927010c] }

/-- A FATAL state. -/
def fatal : State := enterFatal .resetForbidden 0x05 0 State.reset

/-- The accumulator at the bounds of INV (V-RED-7). -/
def hMax : Limbs := ⟨0x3ffffff, 0x4000025, 0x3ffffff, 0x3ffffff, 0x3ffffff⟩

/-- The largest multiplier (V-INIT-1). -/
def rMax : Limbs := ⟨0x3ffffff, 0x3ffff03, 0x3ffc0ff, 0x3f03fff, 0x00fffff⟩

/-- A read and a write by master 7 at an offset of a window at 0x4000, and the state in which one is the host's next access. -/
def rd (o size : Nat) : BusAccess := ⟨7, 0x4000 + o, size, .read⟩
def wr (o size : Nat) (v : Word) : BusAccess := ⟨7, 0x4000 + o, size, .write v⟩
def facing (s : State) (a : BusAccess) : State := { s with base := 0x4000, pending := [.access a] }

/-! ## Well-formedness: each check refuses -/

theorem test_wf_init : (Instr.init 256).wellFormed = false ∧ (Instr.init 255).wellFormed = true := by decide
theorem test_wf_update : (Instr.update 256).wellFormed = false ∧ (Instr.update 255).wellFormed = true := by decide
theorem test_wf_reset : (Instr.reset 256).wellFormed = false ∧ (Instr.reset 255).wellFormed = true := by decide
/-- 30_encoding.md R89. -/
theorem test_assembler_refuses : assemble (.init 256) = none ∧ assemble (.update 17) = none ∧ assemble (.reset 1) = none := by decide

/-! ## Decoding: words written out from the tables of 30_encoding.md sections 1 and 2 -/

theorem test_decode_nop : decode 0b00000000000000000000000000000000 = .ok .nop := by decide
theorem test_decode_init : decode 0b00000000000000000010000000000001 = .ok (.init 32) := by decide
theorem test_decode_update : decode 0b00000000000000000001000000000010 = .ok (.update 16) := by decide
theorem test_decode_finish : decode 0b00000000000000000000000000000011 = .ok .finish := by decide
theorem test_decode_verify : decode 0b00000000000000000000000000000100 = .ok .verify := by decide
theorem test_decode_reset : decode 0b00000000000000000000011100000101 = .ok (.reset 7) := by decide
theorem test_decode_reserved_bits : decode 0x00010003 = .error .reservedBits ∧ decode 0x80000000 = .error .reservedBits := by decide
theorem test_decode_reserved_opcode : decode 0x00000006 = .error .reservedOpcode ∧ decode 0x000000FF = .error .reservedOpcode := by
  decide
theorem test_decode_len : decode 0x00000103 = .error .lenOnNoOperand ∧ decode 0x0000FF00 = .error .lenOnNoOperand := by decide
theorem test_table_word : decodeTableWord 32 0x00001002 = some (.update 16) ∧ decodeTableWord 32 6 = none := by decide

/-! ## Instructions -/

/-- V-ERR-17. -/
theorem test_nop : flagsAfter (exec .nop (keyedRfc .zero .zero 5)) = some (0x00000501, 0) := by decide +kernel

/-- V-INIT-2. -/
theorem test_init : (after (exec (.init 32) idleRfc)).map (fun s => (s.r, s.pad, s.key)) =
    some (⟨0x0bed685, 0x3555502, 0x047c036, 0x1003949, 0x00806d5⟩, #v[0x8a800301, 0xfdb20dfb, 0xaff6bf4a, 0x1bf54941],
      Vector.replicate 8 0) := by decide +kernel

/-- V-ERR-2. -/
theorem test_init_key_size : flagsAfter (exec (.init 31) idleRfc) = some (0x00000004, 0x00011F01) := by decide +kernel

/-- V-FOLD-1. -/
theorem test_update : (after (exec (.update 16)
    { keyedRfc .zero .zero 0 with din := #v[0x70797243, 0x72676f74, 0x69687061, 0x6f462063] })).map (fun s => (s.h, s.off)) =
      some (⟨0x29c83fc, 0x37ae239, 0x2e9147d, 0x2127592, 0x2c88c77⟩, 0) := by decide +kernel

/-- V-ERR-9: in IDLE BAD_LEN comes before NOT_KEYED. -/
theorem test_update_bad_len : flagsAfter (exec (.update 255) idleRfc) = some (0x00000003, 0x0002FF06) := by decide +kernel

/-- V-FIN-1. -/
theorem test_finish : (after (exec .finish lastRfc)).map (fun s => (s.tag, readReg .status s)) =
    some (#v[0xc11d06a8, 0xc6365130, 0xaf8b2bc2, 0xa927010c], 0x0000000A) := by decide +kernel

/-- V-ERR-7, the second FINISH. -/
theorem test_finish_consumed :
    flagsAfter (exec .finish { State.reset with lifecycle := .finished }) = some (0x00000003, 0x00030004) := by decide +kernel

/-- V-VER-1. -/
theorem test_verify : (after (exec .verify lastRfc)).map (fun s => (s.tag, readReg .status s)) = some (Words4.zero, 0x00000032) := by
  decide +kernel

/-- V-VER-3. -/
theorem test_verify_rejects :
    flagsAfter (exec .verify { lastRfc with cand := lastRfc.cand.set 3 0x2927010c }) = some (0x00000012, 0) := by decide +kernel

/-- V-ERR-3. -/
theorem test_reset : flagsAfter (exec (.reset 7) lastRfc) = some (0x00000003, 0x00050002) := by decide +kernel

/-- V-ERR-11: RSV comes before every other check. -/
theorem test_illegal_word : flagsAfter (issueCommand 0x00010005 lastRfc) = some (0x00000003, 0x00050005) := by decide +kernel

/-! ## Stages of the datapath -/

/-- V-DEC-3. -/
theorem test_decode_block : decodeBlock (Vector.ofFn fun j => BitVec.ofNat 8 j) 0x1000000 =
    ⟨0x3020100, 0x1814100, 0x0908070, 0x0302c28, 0x10f0e0d⟩ := by decide +kernel
/-- V-FOLD-3. -/
theorem test_fold_zero_block : fold .zero ⟨1, 0, 0, 0, 0⟩ .zero 0x1000000 = ⟨0, 0, 0, 0, 0x1000000⟩ := by decide +kernel
/-- V-RED-6. -/
theorem test_carry_2p_minus_1 : carry ⟨0x3fffff5, 0x3ffffff, 0x3ffffff, 0x3ffffff, 0x7ffffff⟩ =
    ⟨0x3fffffa, 0x3ffffff, 0x3ffffff, 0x3ffffff, 0x3ffffff⟩ := by decide +kernel
/-- V-RED-7. -/
theorem test_carry_inv_maximum : carry hMax = ⟨4, 0x26, 0, 0, 0⟩ := by decide +kernel
/-- V-RED-2 and V-RED-4: p - 1 is kept, p + 1 becomes 1. -/
theorem test_cond_sub :
    condSub ⟨0x3fffffa, 0x3ffffff, 0x3ffffff, 0x3ffffff, 0x3ffffff⟩ = ⟨0x3fffffa, 0x3ffffff, 0x3ffffff, 0x3ffffff, 0x3ffffff⟩ ∧
      condSub ⟨0x3fffffc, 0x3ffffff, 0x3ffffff, 0x3ffffff, 0x3ffffff⟩ = ⟨1, 0, 0, 0, 0⟩ := by decide +kernel
/-- V-FIN-1, stage Pack. -/
theorem test_pack : pack ⟨0x29d03a7, 0x110cd4d, 0x2c77c88, 0x32bfe51, 0x28d31b7⟩ =
    #v[0x369d03a7, 0xc8844335, 0xff946c77, 0x8d31b7ca] := by decide +kernel
/-- V-PAD-2. -/
theorem test_add_pad : addPad #v[0xfffffffb, 0xffffffff, 0xffffffff, 3] #v[5, 0, 0, 0] = #v[0, 0, 0, 4] := by decide +kernel

/-! ## The bus -/

/-- V-BUS-3, the write: the word is stored and there is no error. -/
theorem test_bus_din : (after (step (facing State.reset (wr 0x38 4 0xdeadbeef)))).map (fun s => (s.din, s.response)) =
    some (#v[0, 0, 0xdeadbeef, 0], some ⟨false, none⟩) := by decide +kernel
/-- V-BUS-4: a 32-bit read at offset 2 is a bus error and returns 0. -/
theorem test_bus_misaligned : (after (step (facing idleRfc (rd 2 4)))).map (·.response) = some (some ⟨true, some 0⟩) := by
  decide +kernel
/-- 70_reset_and_hazards.md R230: hardware reset leaves FATAL, and program P4's last reads give 0. -/
theorem test_hardware_reset : flagsAfter (step { fatal with pending := [.hardwareReset] }) = some (0, 0) := by decide +kernel
/-- The word of `INIT 31` placed as the host's next action runs at the next step from reset. -/
theorem test_with_fetch_word : flagsAfter (step (State.reset.withFetchWord 32 0x00001F01)) = some (0x00000004, 0x00011F01) := by
  decide +kernel

/-! ## Witnesses: the hypotheses of each statement can be met together, at the ends of their ranges -/

/-- For CarryMakesTheAccumulatorCanonical, and with `witness_FinalBlock` for TagIsTheMacOfTheAccumulator. -/
theorem inv_max : hMax.accBounded ∧ rMax.clamped := by unfold Limbs.accBounded Limbs.clamped; decide

theorem lastRfc_inv : (lastRfc.withFetchWord 32 0x00000003).Inv where
  accBounded := by unfold Limbs.accBounded; decide
  clamped := by unfold Limbs.clamped; decide
  lifecycleLegal := ⟨rfl, rfl, rfl, .inl rfl⟩
  errInfoLegal := ⟨rfl, rfl⟩
  tagOnlyWhenValid := fun _ => rfl
  matchOnlyWhenDone := fun _ => rfl
  baseAligned := rfl

theorem about_rd (s : State) (o size : Nat) (h : o < 256) (hm : s.master = none) : (facing s (rd o size)).about (rd o size) o [] :=
  ⟨rfl, rfl, h, .inl hm⟩

theorem about_wr (s : State) (o size : Nat) (v : Word) (h : o < 256) (hm : s.master = none) :
    (facing s (wr o size v)).about (wr o size v) o [] :=
  ⟨rfl, rfl, h, .inl hm⟩

theorem witness_EncodeThenDecode : (Instr.update 255).wellFormed = true := by decide
theorem witness_DecodedWord : decode 0x0000FF05 = .ok (.reset 255) := by decide
theorem witness_IllegalWords : (∃ e, decode 0x00000006 = .error e) ∧ (∃ e, decode 0x00010005 = .error e) ∧
    (∃ e, decode 0x00000104 = .error e) ∧ State.reset.lifecycle ≠ .fatal :=
  ⟨⟨_, rfl⟩, ⟨_, rfl⟩, ⟨_, rfl⟩, by decide⟩
theorem witness_Assembler : 255 ≤ 255 ∧ 16 ≤ 16 ∧ 255 < 256 ∧ 16 < 17 ∧ 1 ≠ 0 := by decide
theorem witness_StepRuns : (facing lastRfc (wr 0 4 0x00000003)).about (wr 0 4 0x00000003) 0 [] ∧ (wr 0 4 0x00000003).size = 4 ∧
    (wr 0 4 0x00000003).kind = .write 0x00000003 ∧ decode 0x00000003 = .ok .finish :=
  ⟨about_wr _ _ _ _ (by decide) rfl, rfl, rfl, by decide⟩
theorem witness_WithFetchWord : 0x0000FF01 < 2 ^ 32 ∧ decodeTableWord 32 0x0000FF01 = some (.init 255) := by decide
theorem witness_EveryAccess : (facing fatal (rd 255 1)).about (rd 255 1) 255 [] ∧
    (facing lastRfc (wr 0 4 6)).about (wr 0 4 6) 0 [] := ⟨about_rd _ _ _ (by decide) rfl, about_wr _ _ _ _ (by decide) rfl⟩
theorem witness_Idleness : lastRfc.pending = [] ∧ ({ fatal with pending := [.powerDown] } : State).pending = [.powerDown] :=
  ⟨rfl, rfl⟩
theorem witness_HardwareReset : ({ fatal with pending := [.hardwareReset] } : State).pending = [.hardwareReset] := rfl
theorem witness_Nop : opField 0x00000100 = 0x00 ∧ lenField 0x00000100 ≠ 0 ∧ opField 0x00010000 = 0x00 ∧
    rsvField 0x00010000 ≠ 0 ∧ lastRfc.lifecycle ≠ .fatal := by decide
theorem witness_Reset : idleRfc.lifecycle ≠ .fatal ∧ fatal.lifecycle = .fatal ∧ opField 0x80000705 = 0x05 ∧
    rsvField 0x80000705 ≠ 0 := by decide
/-- For InitLoadsTheKey and EmptyMessageTagIsThePad. -/
theorem witness_Init : idleRfc.lifecycle ≠ .fatal ∧ lastRfc.lifecycle ≠ .fatal := by decide
theorem witness_InitRefuses : 255 < 256 ∧ 255 ≠ 32 ∧ 31 < 256 ∧ 31 ≠ 32 ∧ lastRfc.lifecycle ≠ .fatal := by decide
theorem witness_UpdateRuns : 16 ≤ 16 ∧ lastRfc.lifecycle = .keyed := by decide
theorem witness_UpdateClosed : 13 ≤ 16 ∧ 14 ≤ 16 ∧ lastRfc.off.toNat + 13 < 16 ∧ 16 ≤ lastRfc.off.toNat + 14 := by decide
theorem witness_MessageCommands : 16 < 17 ∧ 17 < 256 ∧ usesOpenMessage (.update 16) ∧ usesOpenMessage .verify ∧
    idleRfc.lifecycle = .idle ∧ ({ State.reset with lifecycle := .finished } : State).lifecycle = .finished :=
  ⟨by decide, by decide, Nat.le_refl 16, trivial, rfl, rfl⟩
theorem witness_Chunking : lastRfc.lifecycle = .keyed ∧ [[1, 2], ([3] : List Byte)].flatten = [[1], [], [2, 3]].flatten ∧
    (∀ x ∈ [[1, 2], ([3] : List Byte)], x.length ≤ 16) ∧ ∀ x ∈ [[1], [], ([2, 3] : List Byte)], x.length ≤ 16 := by decide
theorem witness_UpdateFrame : ∃ t, exec (.update 16) lastRfc = .next t :=
  ⟨_, exec_of_effect (.absorbed (Nat.le_refl 16) rfl)⟩
/-- For FoldArithmeticNeverWraps, FoldMultipliesModuloP and FoldKeepsTheAccumulatorBound. -/
theorem witness_Fold : hMax.accBounded ∧ rMax.clamped ∧ ((0x1000000 : Word) = 0 ∨ (0x1000000 : Word) = 0x1000000) :=
  ⟨inv_max.1, inv_max.2, .inr rfl⟩
/-- For FinishWritesTheTagAndZeroizes and VerifyAcceptsExactlyTheTagOfFinish. -/
theorem witness_Finish : lastRfc.lifecycle = .keyed := rfl
theorem witness_FinalBlock : (1 : BitVec 4) ≠ 0 ∧ (15 : BitVec 4) ≠ 0 ∧ (0 : BitVec 4) = 0 := by decide
/-- For CondSubIsTheResidueModuloP and PackKeepsTheLow128Bits. -/
theorem witness_CondSub : Limbs.canonical ⟨0x3ffffff, 0x3ffffff, 0x3ffffff, 0x3ffffff, 0x3ffffff⟩ ∧ Limbs.zero.canonical := by
  unfold Limbs.canonical; decide
theorem witness_Verify : lastRfc.lifecycle = .keyed ∧ idleRfc.lifecycle = .idle ∧ opField 0x0000FF04 = 0x04 ∧
    lenField 0x0000FF04 ≠ 0 ∧ opField 0x00010004 = 0x04 ∧ rsvField 0x00010004 ≠ 0 := by decide
theorem witness_FinishVerifyFrame : ∃ t u, exec .finish lastRfc = .next t ∧ exec .verify lastRfc = .next u :=
  ⟨_, _, exec_of_effect (.finished rfl), exec_of_effect (.verified rfl)⟩
theorem witness_FatalEntry : ErrorCode.badLen ≠ .none ∧ ErrorCode.badLen ≠ .keySize ∧ ErrorCode.illegalCmd ≠ .none ∧
    ErrorCode.illegalCmd ≠ .keySize := by decide
theorem witness_Fatal : fatal.lifecycle = .fatal ∧
    ∃ t, step { fatal with pending := [.powerDown] } = .next t ∧ t.lifecycle ≠ .fatal := ⟨rfl, _, rfl, by decide⟩
/-- For FlagsHaveOnlyTheirListedWriters, OnlyInitGivesTheMultiplierAndPadAValue and NoCommandChangesDataRegisters. -/
theorem witness_Commands : ∃ t u v, exec (.init 31) lastRfc = .next t ∧ exec .verify lastRfc = .next u ∧ exec .nop fatal = .next v :=
  ⟨_, _, _, exec_of_effect (.keySize (by decide) (by decide)), exec_of_effect (.verified rfl), rfl⟩
theorem witness_Offsets : 0xFC < 256 ∧ 0xFC % 4 = 0 ∧ regAt 0x5C ≠ .reserved ∧ regAt 0x60 = .reserved ∧ regAt 0xFC = .reserved ∧
    regAt 0x0C = .reserved := by decide
theorem witness_Reserved : (facing lastRfc (rd 0x0C 4)).about (rd 0x0C 4) 0x0C [] ∧ (rd 0x0C 4).kind = .read ∧
    (facing lastRfc (wr 0xFC 4 1)).about (wr 0xFC 4 1) 0xFC [] ∧ (wr 0xFC 4 1).kind = .write 1 :=
  ⟨about_rd _ _ _ (by decide) rfl, rfl, about_wr _ _ _ _ (by decide) rfl, rfl⟩
theorem witness_Malformed : (facing lastRfc (wr 0 1 3)).about (wr 0 1 3) 0 [] ∧ (wr 0 1 3).size ≠ 4 ∧
    (facing lastRfc (rd 255 4)).about (rd 255 4) 255 [] ∧ 255 % 4 ≠ 0 :=
  ⟨about_wr _ _ _ _ (by decide) rfl, by decide, about_rd _ _ _ (by decide) rfl, by decide⟩
theorem witness_AccessTypes : (facing lastRfc (wr 0x2C 4 1)).about (wr 0x2C 4 1) 0x2C [] ∧ regAt 0x2C = .key 7 ∧
    (facing lastRfc (wr 0x3C 4 1)).about (wr 0x3C 4 1) 0x3C [] ∧ regAt 0x3C = .din 3 ∧ regAt 0x4C = .cand 3 ∧ regAt 0x04 = .status ∧
    regAt 0x08 = .errInfo ∧ regAt 0x50 = .tag 0 ∧ regAt 0x00 = .cmd ∧ (rd 0x5C 4).kind = .read :=
  ⟨about_wr _ _ _ _ (by decide) rfl, by decide, about_wr _ _ _ _ (by decide) rfl, by decide, by decide, by decide, by decide,
    by decide, by decide, rfl⟩
theorem witness_ByteLanes : ([] : List Byte).length ≤ 16 ∧ (List.replicate 16 (0xff : Byte)).length ≤ 16 := by decide
theorem witness_KeyMaterial : State.sameToHost lastRfc { lastRfc with r := rMax, key := Vector.replicate 8 1, h := hMax } ∧
    lastRfc.r ≠ rMax ∧ (Instr.update 16 ≠ .finish ∧ Instr.update 16 ≠ .verify) :=
  ⟨⟨rfl, rfl, rfl, rfl, rfl, rfl, rfl, rfl, rfl, rfl, rfl, rfl⟩, by decide, by decide⟩
theorem witness_Stale : (∀ j : Fin 16, j.val < lastRfc.off.toNat → lastRfc.buf[j] = (lastRfc.buf.set 2 0xff)[j]) ∧
    lastRfc.buf ≠ lastRfc.buf.set 2 0xff := by decide +kernel
theorem witness_Stops : (facing { State.reset with master := some 3 } (rd 0 4)).pending = [.access (rd 0 4)] ∧
    0x4000 ≤ (rd 0xFF 4).addr ∧ (rd 0xFF 4).addr < 0x4000 + 256 ∧ some 3 ≠ some (rd 0 4).master ∧
    0x4000 + 256 ≤ (rd 256 4).addr := by decide
theorem witness_Engines : ∃ q u : Platform,
    (⟨[facing State.reset (wr 0x10 4 1), { State.reset with pending := [.hardwareReset] }]⟩ : Platform).stepEngine 0 = .next q ∧
      q.stepEngine 1 = .next u ∧ (0 : Nat) ≠ 1 ∧ State.reset.owns 0x4010 = false ∧
      (facing State.reset (wr 0x10 4 1)).owns 0x40FF = true ∧ State.reset.base % 256 = 0 ∧ 0x4000 % 256 = 0 :=
  ⟨_, _, rfl, rfl, by decide, by decide, by decide, by decide, by decide⟩
theorem witness_Invariant : (lastRfc.withFetchWord 32 0x00000003).Inv ∧
    (after (step (lastRfc.withFetchWord 32 0x00000003))).isSome = true := ⟨lastRfc_inv, by decide +kernel⟩

end Sys2Proof.Tests.Slice0
end

section
/-! PROOF. Hardware reset (10_state.md R38, 70_reset_and_hazards.md R230): the reset state's values, and that a step at a pending
hardware reset gives every register its value there. -/

namespace Sys2Proof.Machine

theorem Block.getElem_zero (j : Fin 16) : Block.zero[j] = 0 := Vector.getElem_replicate j.isLt

theorem step_of_pending_hardwareReset {s : State} {rest : List HostEvent} (h : s.pending = .hardwareReset :: rest) :
    step s = .next (hardwareReset { s with pending := rest }) := by
  simp only [step, stepPending, h, performEvent]

theorem readReg_status_hardwareReset (s : State) : readReg .status (hardwareReset s) = 0 := by
  simp [readReg, statusWord, Lifecycle.code]

theorem readReg_errInfo_hardwareReset (s : State) : readReg .errInfo (hardwareReset s) = 0 := by
  simp [readReg, errInfoWord, ErrorCode.code]

/-- Settles O12: `State.reset` gives each register its value of R38; BUF and KEY are read entry by entry. -/
theorem resetStateHasTheValuesOfR38 : Obligations.ResetStateHasTheValuesOfR38 := by
  have key (j : Fin 8) : State.reset.key[j] = 0 := Vector.getElem_replicate j.isLt
  exact ⟨rfl, rfl, rfl, rfl, Block.getElem_zero, rfl, key, rfl, rfl, rfl, rfl, rfl, rfl, rfl, rfl, rfl, rfl⟩

/-- Settles O11: the step is `hardwareReset`, whose registers are those of `State.reset` (O12) whatever the state before, and the
two words the host reads are built from them. -/
theorem hardwareResetClearsEveryRegister : Obligations.HardwareResetClearsEveryRegister := by
  intro s rest hp
  obtain ⟨lifecycle, r, pad, h, buf, off, key, din, cand, tag, keyErr, tagV, vDone, matched, eCode, eLen, eOp⟩ :=
    resetStateHasTheValuesOfR38
  exact ⟨hardwareReset { s with pending := rest }, step_of_pending_hardwareReset hp, lifecycle, r, pad, h, buf, off, key, din, cand,
    tag, keyErr, tagV, vDone, matched, eCode, eLen, eOp, readReg_status_hardwareReset _, readReg_errInfo_hardwareReset _⟩

end Sys2Proof.Machine
end

section
/-! PROOF. The register window on the bus (20_memory.md R52, R55): the step of a 32-bit aligned read and of a 32-bit aligned write by
the host, what a write does per register, and which offsets are reserved. -/

namespace Sys2Proof.Machine

/-- What a read gives does not depend on the host's side of the bus. -/
@[simp] theorem readReg_pending_master (q : Reg) (s : State) (rest : List HostEvent) (m : Option Nat) :
    readReg q { s with pending := rest, master := m } = readReg q s := by
  cases q <;> rfl

/-! `writeReg`, per access type (20_memory.md R55) -/
@[simp] theorem writeReg_cmd (v : Word) (s : State) : writeReg .cmd v s = issueCommand v s := rfl
@[simp] theorem writeReg_status (v : Word) (s : State) : writeReg .status v s = .next s := rfl
@[simp] theorem writeReg_errInfo (v : Word) (s : State) : writeReg .errInfo v s = .next s := rfl
@[simp] theorem writeReg_key (j : Fin 8) (v : Word) (s : State) : writeReg (.key j) v s = .next { s with key := s.key.set j v } := rfl
@[simp] theorem writeReg_din (j : Fin 4) (v : Word) (s : State) : writeReg (.din j) v s = .next { s with din := s.din.set j v } := rfl
@[simp] theorem writeReg_cand (j : Fin 4) (v : Word) (s : State) :
    writeReg (.cand j) v s = .next { s with cand := s.cand.set j v } := rfl
@[simp] theorem writeReg_tag (j : Fin 4) (v : Word) (s : State) : writeReg (.tag j) v s = .next s := rfl
@[simp] theorem writeReg_reserved (v : Word) (s : State) : writeReg .reserved v s = .next s := rfl

/-- 20_memory.md R50, R52. -/
theorem regAt_eq_reserved {o : Nat} (h : o = 0x0C ∨ 0x60 ≤ o) : regAt o = .reserved := by
  rcases h with rfl | h
  · rfl
  · simp only [regAt]
    repeat rw [if_neg (by omega)]

theorem properAccess_of_aligned_word {o size : Nat} (hsize : size = 4) (halign : o % 4 = 0) : properAccess o size = true := by
  simp [properAccess, hsize, halign]

theorem step_of_read {s : State} {a : BusAccess} {o : Nat} {rest : List HostEvent} (h : s.about a o rest) (hsize : a.size = 4)
    (halign : o % 4 = 0) (hk : a.kind = .read) :
    step s = .next (s.served a.master rest ⟨false, some (readReg (regAt o) s)⟩) := by
  simp only [step_about h, windowAccess, properAccess_of_aligned_word hsize halign, if_true, hk, readReg_pending_master]
  rfl

theorem step_of_write {s : State} {a : BusAccess} {o : Nat} {rest : List HostEvent} {v : Word} (h : s.about a o rest)
    (hsize : a.size = 4) (halign : o % 4 = 0) (hk : a.kind = .write v) :
    step s = writeReg (regAt o) v (s.served a.master rest ⟨false, none⟩) := by
  simp only [step_about h, windowAccess, properAccess_of_aligned_word hsize halign, if_true, hk]
  rfl

/-- Settles O50: the access is one to the register `.reserved`, which reads 0 and ignores writes. -/
theorem reservedOffsetsReadZeroAndIgnoreWrites : Obligations.ReservedOffsetsReadZeroAndIgnoreWrites := by
  intro s a o rest h hsize halign ho
  have hreg : regAt o = .reserved := regAt_eq_reserved ho
  refine ⟨fun hk => ?_, fun v hk => ?_⟩
  · rw [step_of_read h hsize halign hk, hreg]
    rfl
  · rw [step_of_write h hsize halign hk, hreg, writeReg_reserved]

/-- Settles O52: a read is `step_of_read`; a write is `step_of_write` and then the write of the register the offset names. -/
theorem accessesActAsTheirAccessTypes : Obligations.AccessesActAsTheirAccessTypes := by
  intro s a o rest h hsize halign
  refine ⟨step_of_read h hsize halign, rfl, fun _ => rfl, fun _ => rfl, fun _ => rfl, fun _ => rfl, fun v hk => ?_⟩
  rw [step_of_write h hsize halign hk]
  refine ⟨fun j hreg => ?key, fun j hreg => ?din, fun j hreg => ?cand, fun hreg => ?ignored, fun hreg => ?cmd⟩
  case key => rw [hreg, writeReg_key, State.served_key]
  case din => rw [hreg, writeReg_din, State.served_din]
  case cand => rw [hreg, writeReg_cand, State.served_cand]
  case ignored =>
    obtain hreg | hreg | ⟨j, hreg⟩ := hreg
    · rw [hreg, writeReg_status]
    · rw [hreg, writeReg_errInfo]
    · rw [hreg, writeReg_tag]
  case cmd => rw [hreg, writeReg_cmd]

end Sys2Proof.Machine
end

section
/-! PROOF. Illegal command words (30_encoding.md R84, R86): what `decode` answers per RSV and opcode, that its errors are the three
cases of R86, and that a word it rejects enters FATAL with ILLEGAL_CMD. -/

namespace Sys2Proof

/-- The rows of the opcode map (30_encoding.md R84): six commands and the reserved opcodes. -/
theorem opcode_cases (op : Byte) :
    op = 0x00#8 ∨ op = 0x01#8 ∨ op = 0x02#8 ∨ op = 0x03#8 ∨ op = 0x04#8 ∨ op = 0x05#8 ∨ 6 ≤ op.toNat := by
  simp only [← BitVec.toNat_inj, BitVec.toNat_ofNat]
  omega

theorem noOperand_rejects_iff (len : Nat) (i : Instr) : (∃ e, noOperand len i = .error e) ↔ len ≠ 0 := by
  by_cases h : len = 0 <;> simp [noOperand, h]

/-! `decode`, one equation per row of the opcode map -/
section
variable {w : Word}

theorem decode_of_reservedBits (hrsv : rsvField w ≠ 0#16) : decode w = .error .reservedBits := if_pos hrsv

theorem decode_of_op_nop (hrsv : rsvField w = 0#16) (hop : opField w = 0x00#8) : decode w = noOperand (lenField w) .nop := by
  simp [decode, hrsv, hop]

theorem decode_of_op_init (hrsv : rsvField w = 0#16) (hop : opField w = 0x01#8) : decode w = .ok (.init (lenField w)) := by
  simp [decode, hrsv, hop]

theorem decode_of_op_update (hrsv : rsvField w = 0#16) (hop : opField w = 0x02#8) : decode w = .ok (.update (lenField w)) := by
  simp [decode, hrsv, hop]

theorem decode_of_op_finish (hrsv : rsvField w = 0#16) (hop : opField w = 0x03#8) : decode w = noOperand (lenField w) .finish := by
  simp [decode, hrsv, hop]

theorem decode_of_op_verify (hrsv : rsvField w = 0#16) (hop : opField w = 0x04#8) : decode w = noOperand (lenField w) .verify := by
  simp [decode, hrsv, hop]

theorem decode_of_op_reset (hrsv : rsvField w = 0#16) (hop : opField w = 0x05#8) : decode w = .ok (.reset (lenField w)) := by
  simp [decode, hrsv, hop]

theorem decode_of_reservedOpcode (hrsv : rsvField w = 0#16) (hop : 6 ≤ (opField w).toNat) : decode w = .error .reservedOpcode := by
  have hne (n : Nat) (hn : n < 6) : opField w ≠ BitVec.ofNat 8 n := by
    intro h
    rw [h, BitVec.toNat_ofNat] at hop
    omega
  simp [decode, hrsv, hne]

end

/-- 30_encoding.md R86. -/
theorem decode_rejects_iff (w : Word) :
    (∃ e, decode w = .error e) ↔
      (rsvField w ≠ 0#16 ∨ 6 ≤ (opField w).toNat ∨
        ((opField w = 0x00#8 ∨ opField w = 0x03#8 ∨ opField w = 0x04#8) ∧ lenField w ≠ 0)) := by
  by_cases hrsv : rsvField w = 0#16
  case neg => simp [decode_of_reservedBits hrsv, hrsv]
  obtain hop | hop | hop | hop | hop | hop | hop := opcode_cases (opField w)
  · simp [decode_of_op_nop hrsv hop, noOperand_rejects_iff, hrsv, hop]
  · simp [decode_of_op_init hrsv hop, hrsv, hop]
  · simp [decode_of_op_update hrsv hop, hrsv, hop]
  · simp [decode_of_op_finish hrsv hop, noOperand_rejects_iff, hrsv, hop]
  · simp [decode_of_op_verify hrsv hop, noOperand_rejects_iff, hrsv, hop]
  · simp [decode_of_op_reset hrsv hop, hrsv, hop]
  · simp [decode_of_reservedOpcode hrsv hop, hop]

namespace Machine

theorem issueCommand_of_rejected {w : Word} (hw : ∃ e, decode w = .error e) (s : State) :
    issueCommand w s = .next (illegalWord (opField w) s) := by
  obtain ⟨e, he⟩ := hw
  simp only [issueCommand, he]

/-- ILLEGAL_CMD records ELEN 0 whatever the word's LEN (60_exceptions.md R200, R203). -/
theorem enterFatal_illegalCmd_len (op : Byte) (len : Nat) (s : State) :
    enterFatal .illegalCmd op len s = enterFatal .illegalCmd op 0 s := rfl

/-- Settles O3: the decoder's errors, opcode by opcode, are the cases of R86; a rejected word is `illegalWord`, which outside FATAL
is the fatal entry. -/
theorem illegalWordsAreExactlyR86AndAreFatal : Obligations.IllegalWordsAreExactlyR86AndAreFatal := by
  refine fun w => ⟨decode_rejects_iff w, fun s hw hs => ?_⟩
  rw [issueCommand_of_rejected hw, illegalWord_of_ne hs, enterFatal_illegalCmd_len _ (lenField w)]

end Machine

end Sys2Proof
end

section
/-! PROOF. INIT (40_init.md R102, R103, 60_exceptions.md R204): a refusal leaves nothing that a later INIT 32 depends on, and ERRINFO
reads 0 after INIT 32. -/

namespace Sys2Proof.Machine

/-- The refusal is recoverable (60_exceptions.md R204): INIT 32 overwrites every register the refusal wrote and reads none of them. -/
@[simp] theorem loadKey_refuseKeySize (n : Nat) (s : State) : loadKey (refuseKeySize n s) = loadKey s := rfl

theorem readReg_errInfo_loadKey (s : State) : readReg .errInfo (loadKey s) = 0 := by
  simp [readReg, errInfoWord, ErrorCode.code]

/-- Settles O15: outside FATAL the effect of INIT 32 is `loadKey`, which is the record update of R103. -/
theorem initLoadsTheKey : Obligations.InitLoadsTheKey :=
  fun _ hf => exec_of_effect (.loaded hf)

/-- Settles O16: the effect is `refuseKeySize`, which keeps the lifecycle state, so INIT 32 runs after it, and leaves what it would
have left without the refusal. -/
theorem initRefusesAWrongKeyLength : Obligations.InitRefusesAWrongKeyLength := by
  intro n s _ hn hf
  have hrefused : exec (.init n) s = .next (refuseKeySize n s) := exec_of_effect (.keySize hn hf)
  have hloaded : exec (.init 32) s = .next (loadKey s) := exec_of_effect (.loaded hf)
  have hrecovered : exec (.init 32) (refuseKeySize n s) = .next (loadKey s) := by
    have hf' : (refuseKeySize n s).lifecycle ≠ .fatal := by rwa [refuseKeySize_lifecycle]
    rw [exec_of_effect (.loaded hf'), loadKey_refuseKeySize]
  exact ⟨refuseKeySize n s, loadKey s, hrefused, rfl, hrecovered, hloaded, loadKey_lifecycle s, loadKey_keyErr s,
    readReg_errInfo_loadKey s⟩

end Sys2Proof.Machine
end

section
/-! PROOF. UPDATE (41_update.md R120, R121): the two branches of `absorbByte` in the spec's own test on OFF, and the message bytes of
a legal LEN as the lane bytes the loop counts over. -/

namespace Sys2Proof.Machine

/-- R121 counts OFF as an integer that reaches 16; the register has 4 bits, so that is the increment of 15. -/
theorem off_succ_eq_sixteen_iff (off : BitVec 4) : off.toNat + 1 = 16 ↔ off = 15#4 := by
  rw [← BitVec.toNat_inj, BitVec.toNat_ofNat]
  omega

theorem absorbByte_of_fills {s : State} (h : s.off.toNat + 1 = 16) (b : Byte) :
    absorbByte s b = { s with
      buf := s.buf.set s.off.toNat b s.off.isLt
      off := 0#4
      h := fold s.h s.r (s.buf.set s.off.toNat b s.off.isLt) Config.fullBlockFlag } :=
  if_pos ((off_succ_eq_sixteen_iff s.off).mp h)

theorem absorbByte_of_room {s : State} (h : s.off.toNat + 1 ≠ 16) (b : Byte) :
    absorbByte s b = { s with buf := s.buf.set s.off.toNat b s.off.isLt, off := s.off + 1#4 } :=
  if_neg (mt (off_succ_eq_sixteen_iff s.off).mpr h)

theorem chunk_eq_map_laneByte {n : Nat} (hn : n ≤ 16) (din : Words4) : chunk n din = (List.range n).map (laneByte din) := by
  rw [chunk, bytesOf, ← List.map_take, List.take_range, Nat.min_eq_left hn]

/-- Settles O19: the effect is `absorb` of the chunk, a fold over the lane bytes, and each pass of R121's loop is `absorbByte` of the
pass's lane byte, whether or not it fills the buffer. -/
theorem updateRunsTheByteLoop : Obligations.UpdateRunsTheByteLoop := by
  intro n s hn hkeyed
  rw [exec_of_effect (.absorbed hn hkeyed), chunk_eq_map_laneByte hn, absorb, List.foldl_map]
  congr 2
  funext t k
  split
  case isTrue hfills => exact absorbByte_of_fills hfills _
  case isFalse hroom => exact absorbByte_of_room hroom _

end Sys2Proof.Machine
end

section
/-! PROOF. DecodeBlock (41_update.md R127): its limbs are slices of the block's 128-bit value. -/

namespace Sys2Proof.Machine

theorem leNat_block_lt (b : Block) : leNat b.toList < 2 ^ 128 := by
  rw [leNat_block]
  exact leWords_four_lt ..

/-- The top 24 bits of a block, with the flag or'ed on, stay below 2^25 (41_update.md R127). -/
theorem top_or_hibit_lt (b : Block) {hibit : Word} (hflag : hibit = 0#32 ∨ hibit = Config.fullBlockFlag) :
    leNat b.toList / 2 ^ 104 ||| hibit.toNat < 2 ^ 25 := by
  have htop : leNat b.toList / 2 ^ 104 < 2 ^ 24 := Nat.div_lt_of_lt_mul (leNat_block_lt b)
  have hbit : hibit.toNat < 2 ^ 25 := by rcases hflag with rfl | rfl <;> decide
  exact Nat.or_lt_two_pow (htop.trans (by decide)) hbit

/-- Settles O25: the shifts and masks are DecodeBlock itself, the slices are those of any four words, and the bound on limb 4 follows
from its slice. -/
theorem decodeBlockSlicesTheValue : Obligations.DecodeBlockSlicesTheValue := by
  intro b hibit
  obtain ⟨h0, h1, h2, h3, h4⟩ := limbsOfWords_toNat (le32 b[0] b[1] b[2] b[3]) (le32 b[4] b[5] b[6] b[7])
    (le32 b[8] b[9] b[10] b[11]) (le32 b[12] b[13] b[14] b[15]) hibit
  rw [← leNat_block b] at h0 h1 h2 h3 h4
  refine ⟨?_, h0, h1, h2, h3, h4, fun hflag => h4.trans_lt (top_or_hibit_lt b hflag)⟩
  rintro _ _ _ _ rfl rfl rfl rfl
  rfl

end Sys2Proof.Machine
end

section
/-! PROOF. FINISH (42_finish.md R152, R153, R158): the padded final block, the carry chain of AddPad, and what FINISH leaves. -/

namespace Sys2Proof.Machine

/-- Two words and no carry in (42_finish.md R158): the 64-bit sum does not wrap. -/
theorem zext_add_toNat (x y : Word) : (x.setWidth 64 + y.setWidth 64 : DWord).toNat = x.toNat + y.toNat := by
  have hx := x.isLt
  have hy := y.isLt
  simp only [BitVec.toNat_add, BitVec.toNat_setWidth]
  omega

/-- Two words and the carry of the sum before them (42_finish.md R158): the 64-bit sum does not wrap. -/
theorem zext_add_carry_toNat (x y : Word) (f : DWord) :
    (x.setWidth 64 + y.setWidth 64 + (f >>> 32)).toNat = x.toNat + y.toNat + f.toNat / 2 ^ 32 := by
  have hx := x.isLt
  have hy := y.isLt
  have hf := f.isLt
  have hcarry : (f >>> 32).toNat = f.toNat / 2 ^ 32 := by rw [BitVec.toNat_ushiftRight, Nat.shiftRight_eq_div_pow]
  rw [add_toNat64 _ _ (by rw [zext_add_toNat, hcarry]; omega), zext_add_toNat, hcarry]

/-- Settles O34: no sum of the chain wraps, each keeps its low word in place and hands the rest on with weight 2^32, so only the carry
out of the last is lost. -/
theorem padAdditionIsModulo2To128 : Obligations.PadAdditionIsModulo2To128 := by
  intro w pad
  rw [words4_toList w, words4_toList pad]
  simp only [addPad, Vector.toList_mk, leWords, lo32_toNat, zext_add_carry_toNat, zext_add_toNat]
  omega

/-- 42_finish.md R153. -/
theorem finalBlock_toList (buf : Block) (off : BitVec 4) :
    (finalBlock buf off).toList = buf.toList.take off.toNat ++ [0x01#8] ++ List.replicate (15 - off.toNat) 0x00#8 := by
  have hoff : off.toNat < 16 := off.isLt
  have hfill : min off.toNat 16 = off.toNat := Nat.min_eq_left hoff.le
  apply List.ext_getElem
  case hl =>
    simp only [List.length_append, List.length_take, Vector.length_toList, List.length_singleton, List.length_replicate]
    omega
  case h =>
    intro j hj _
    have hj16 : j < 16 := by simpa using hj
    simp only [finalBlock, Vector.getElem_toList, Vector.getElem_ofFn]
    obtain hfilled | rfl | hrest := Nat.lt_trichotomy j off.toNat
    · simp [hfilled, hj16]
    · simp [hfill]
    · simp [List.getElem_append, List.getElem_cons, hfill, hrest.not_gt, hrest.ne', Nat.sub_ne_zero_of_lt hrest]

theorem finalAccumulator_of_empty (h r : Limbs) (buf : Block) {off : BitVec 4} (hoff : off = 0#4) :
    finalAccumulator h r buf off = h := if_pos hoff

theorem finalAccumulator_of_filled (h r : Limbs) (buf : Block) {off : BitVec 4} (hoff : off ≠ 0#4) :
    finalAccumulator h r buf off = fold h r (finalBlock buf off) 0#32 := if_neg hoff

/-- Settles O30: the block is `finalBlock_toList`, and whether it is folded is the test on OFF. -/
theorem finalBlockIsPaddedWithOneAndZeros : Obligations.FinalBlockIsPaddedWithOneAndZeros :=
  fun h r buf off =>
    ⟨fun hoff => ⟨finalBlock_toList buf off, finalAccumulator_of_filled h r buf hoff⟩, finalAccumulator_of_empty h r buf⟩

/-- Settles O29: in KEYED the effect of FINISH is `finishMessage`, which is the record update of R152. -/
theorem finishWritesTheTagAndZeroizes : Obligations.FinishWritesTheTagAndZeroizes :=
  fun _ hkeyed => exec_of_effect (.finished hkeyed)

end Sys2Proof.Machine
end

section
/-! PROOF. VERIFY (43_verify.md R180, R181): `ctEqual` is the test that its two tags are equal, so MATCH is that test on the tag and
CAND. -/

namespace Sys2Proof.Machine

/-- Why CtEqual ors `diff` with its negation: only for zero have both the top bit clear. -/
theorem msb_or_neg (d : Word) : (d ||| -d).msb = decide (d ≠ 0#32) := by
  rw [BitVec.msb_or, BitVec.msb_neg]
  by_cases hzero : d = 0#32
  · simp [hzero]
  by_cases hmin : d = BitVec.intMin 32
  · subst hmin
    decide
  · rw [bne_iff_ne.mpr hzero, bne_iff_ne.mpr hmin]
    cases d.msb <;> simp [hzero]

theorem ushiftRight_31 (x : Word) : x >>> 31 = if x.msb then 1#32 else 0#32 := by
  have hx : x.toNat < 2 ^ 32 := x.isLt
  have hshift : (x >>> 31).toNat = x.toNat / 2 ^ 31 := by rw [BitVec.toNat_ushiftRight, Nat.shiftRight_eq_div_pow]
  simp only [BitVec.msb_eq_decide, decide_eq_true_eq, ← BitVec.toNat_inj, hshift, apply_ite BitVec.toNat, BitVec.toNat_ofNat]
  split <;> omega

/-- `nz` of CtEqual (43_verify.md R181): 1 exactly for a nonzero word. -/
theorem or_neg_ushiftRight_31 (d : Word) : (d ||| (0#32 - d)) >>> 31 = if d = 0#32 then 0#32 else 1#32 := by
  rw [BitVec.zero_sub, ushiftRight_31, msb_or_neg, decide_not]
  by_cases h : d = 0#32 <;> simp [h]

/-- `diff` of CtEqual (43_verify.md R181) is zero exactly on equal tags. -/
theorem or_xor_words4_eq_zero_iff (t u : Words4) :
    0#32 ||| (t[0] ^^^ u[0]) ||| (t[1] ^^^ u[1]) ||| (t[2] ^^^ u[2]) ||| (t[3] ^^^ u[3]) = 0#32 ↔ t = u := by
  rw [← Vector.toList_inj, words4_toList t, words4_toList u]
  simp [BitVec.or_eq_zero_iff, BitVec.xor_eq_zero_iff, and_assoc]

theorem ctEqual_eq_ite (t u : Words4) : ctEqual t u = if t = u then 1#32 else 0#32 := by
  simp only [ctEqual, or_neg_ushiftRight_31, or_xor_words4_eq_zero_iff]
  split <;> rfl

/-- MATCH of VERIFY as a proposition (43_verify.md R180). -/
theorem ctEqual_getLsbD_zero (t u : Words4) : (ctEqual t u).getLsbD 0 = decide (t = u) := by
  rw [ctEqual_eq_ite]
  by_cases h : t = u <;> simp [h]

theorem decode_rejects_verify_operand {w : Word} (hop : opField w = 0x04#8) (hw : rsvField w ≠ 0#16 ∨ lenField w ≠ 0) :
    ∃ e, decode w = .error e :=
  (decode_rejects_iff w).mpr (hw.imp_right fun hlen => .inr ⟨.inr (.inr hop), hlen⟩)

/-- Settles O38: in KEYED the effect of VERIFY is `verifyMessage`, whose MATCH is `ctEqual_getLsbD_zero`; the lifecycle checks and the
decoder's rejection give the fatal entries. -/
theorem verifyComparesTheTagAndZeroizes : Obligations.VerifyComparesTheTagAndZeroizes := by
  refine ⟨fun s hkeyed => ?keyed, fun s hidle => ?idle, fun s hfinished => ?finished, fun w s hop hw hs => ?illegal⟩
  case keyed =>
    rw [exec_of_effect (.verified hkeyed), ← State.tagWords, ← ctEqual_getLsbD_zero]
    rfl
  case idle => exact exec_of_effect (.notKeyed (i := .verify) trivial hidle)
  case finished => exact exec_of_effect (.consumed (i := .verify) trivial hfinished)
  case illegal =>
    rw [← hop]
    exact (illegalWordsAreExactlyR86AndAreFatal w).2 s (decode_rejects_verify_operand hop hw) hs

end Sys2Proof.Machine
end

section
/-! PROOF. NOP and RESET (44_control.md R190, R191): NOP's well-formed word is the zero word, malformed words of either opcode are
rejected by the decoder, and what STATUS and ERRINFO read after RESET. -/

namespace Sys2Proof.Machine

/-- 30_encoding.md R86, for either form of a malformed NOP. -/
theorem decode_rejects_nop_operand {w : Word} (hop : opField w = 0x00#8) (hw : rsvField w ≠ 0#16 ∨ lenField w ≠ 0) :
    ∃ e, decode w = .error e :=
  (decode_rejects_iff w).mpr (hw.imp_right fun hlen => .inr ⟨.inl hop, hlen⟩)

theorem issueCommand_of_decoded {w : Word} {i : Instr} (hw : decode w = .ok i) (s : State) : issueCommand w s = exec i s := by
  simp only [issueCommand, hw]

/-- STATUS in FATAL has STATE = 3, and every flag and OFFSET 0 (60_exceptions.md R203). -/
theorem readReg_status_enterFatal (code : ErrorCode) (op : Byte) (len : Nat) (s : State) :
    readReg .status (enterFatal code op len s) = 0x00000003#32 := by
  simp [readReg, statusWord, Lifecycle.code]

/-- RESET_FORBIDDEN records ELEN 0 whatever the word's LEN (60_exceptions.md R200, R203). -/
theorem readReg_errInfo_enterFatal_resetForbidden (len : Nat) (s : State) :
    readReg .errInfo (enterFatal .resetForbidden 0x05#8 len s) = 0x00050002#32 := by
  simp only [readReg, errInfoWord, enterFatal_eCode, enterFatal_eLen, enterFatal_eOp, recordedLen, ErrorCode.code]
  decide

/-- Settles O13: NOP has no effect in any state, its word decodes to it, and its malformed words are rejected by the decoder. -/
theorem nopChangesNothing : Obligations.NopChangesNothing := by
  have hexec (s : State) : exec .nop s = .next s := exec_of_effect .nothing
  have hword : decode 0x00000000#32 = .ok .nop := by decide
  refine ⟨hexec, fun s => ?word, fun w s hop hw hs => ?illegal⟩
  case word => rw [issueCommand_of_decoded hword, hexec]
  case illegal =>
    rw [← hop]
    exact (illegalWordsAreExactlyR86AndAreFatal w).2 s (decode_rejects_nop_operand hop hw) hs

/-- Settles O14: outside FATAL the effect of RESET is the fatal entry, whose registers are read off; in FATAL it is ignored; a word
with reserved bits is rejected by the decoder. -/
theorem resetIsForbidden : Obligations.ResetIsForbidden := by
  refine ⟨fun n s hs => ?forbidden, fun n s hs => exec_of_effect (.ignored hs), fun w s hop hrsv hs => ?illegal⟩
  case forbidden =>
    exact ⟨enterFatal .resetForbidden 0x05#8 n s, exec_of_effect (.forbidden hs), rfl, readReg_status_enterFatal ..,
      readReg_errInfo_enterFatal_resetForbidden n s⟩
  case illegal =>
    rw [← hop]
    exact (illegalWordsAreExactlyR86AndAreFatal w).2 s ⟨_, decode_of_reservedBits hrsv⟩ hs

end Sys2Proof.Machine
end

section
/-! PROOF. The check order (60_exceptions.md R202, 30_encoding.md R88): the fields of a word that decodes, the outcome R202 decides for
a rejected word and for each effect of a decoded command, and that FATAL ignores both kinds of word (R205). -/

namespace Sys2Proof

theorem noOperand_accepts_iff (len : Nat) (i j : Instr) : noOperand len i = .ok j ↔ len = 0 ∧ i = j := by
  by_cases h : len = 0 <;> simp [noOperand, h]

/-- 30_encoding.md R80, R84: a word that decodes has RSV 0 and the opcode and LEN of its command. -/
theorem fields_of_decoded {w : Word} {i : Instr} (h : decode w = .ok i) :
    rsvField w = 0#16 ∧ opField w = i.op ∧ lenField w = i.len := by
  by_cases hrsv : rsvField w = 0#16
  case neg => simp [decode_of_reservedBits hrsv] at h
  refine ⟨hrsv, ?_⟩
  obtain hop | hop | hop | hop | hop | hop | hop := opcode_cases (opField w)
  · rw [decode_of_op_nop hrsv hop, noOperand_accepts_iff] at h
    obtain ⟨hlen, rfl⟩ := h
    exact ⟨hop, hlen⟩
  · cases (decode_of_op_init hrsv hop).symm.trans h
    exact ⟨hop, rfl⟩
  · cases (decode_of_op_update hrsv hop).symm.trans h
    exact ⟨hop, rfl⟩
  · rw [decode_of_op_finish hrsv hop, noOperand_accepts_iff] at h
    obtain ⟨hlen, rfl⟩ := h
    exact ⟨hop, hlen⟩
  · rw [decode_of_op_verify hrsv hop, noOperand_accepts_iff] at h
    obtain ⟨hlen, rfl⟩ := h
    exact ⟨hop, hlen⟩
  · cases (decode_of_op_reset hrsv hop).symm.trans h
    exact ⟨hop, rfl⟩
  · simp [decode_of_reservedOpcode hrsv hop] at h

namespace Machine

theorem issueCommand_of_fatal (w : Word) {s : State} (hs : s.lifecycle = .fatal) : issueCommand w s = .next s := by
  cases hd : decode w with
  | ok i => rw [issueCommand_of_decoded hd, exec_of_effect (.ignored hs)]
  | error e => rw [issueCommand_of_rejected ⟨e, hd⟩, illegalWord_of_fatal hs]

/-! `wordOutcome`, per check of R202 -/

/-- Check 1. -/
theorem wordOutcome_fatal (w : Word) : wordOutcome w .fatal = .ignored := if_pos rfl

/-- Checks 2, 3 and 5: what the decoder rejects. -/
theorem wordOutcome_of_rejected {w : Word} {st : Lifecycle} (hw : ∃ e, decode w = .error e) (hst : st ≠ .fatal) :
    wordOutcome w st = .illegalCmd := by
  have hop6 : 0x06#8 ≤ opField w ↔ 6 ≤ (opField w).toNat := BitVec.le_def
  rw [wordOutcome, if_neg hst]
  obtain hrsv | hop | ⟨hop | hop | hop, hlen⟩ := (decode_rejects_iff w).mp hw
  · exact if_pos hrsv
  · rw [if_pos (hop6.mpr hop), ite_self]
  all_goals simp [takesNoLen, hop, hlen]

section
variable {w : Word} {i : Instr} (hd : decode w = .ok i)
include hd

/-- Checks 7 and 8. -/
theorem wordOutcome_of_usesOpenMessage (hi : usesOpenMessage i) :
    wordOutcome w .idle = .notKeyed ∧ wordOutcome w .finished = .consumed := by
  obtain ⟨hrsv, hop, hlen⟩ := fields_of_decoded hd
  cases i with
  | update n =>
    have hn : ¬ 16 < n := Nat.not_lt.mpr hi
    simp [wordOutcome, takesNoLen, usesMessage, hrsv, hop, hlen, hn, Instr.op, Instr.len]
  | finish | verify => simp [wordOutcome, takesNoLen, usesMessage, hrsv, hop, hlen, Instr.op, Instr.len]
  | nop | init | reset => exact hi.elim

/-- What the first applying check decides for a word that decodes is the effect its command has, whichever of them it is. -/
theorem applyOutcome_of_effect {s t : State} (he : Effect i s t) : applyOutcome (wordOutcome w s.lifecycle) w s = t := by
  obtain ⟨hrsv, hop, hlen⟩ := fields_of_decoded hd
  cases he with
  | ignored hf => rw [hf, wordOutcome_fatal]; rfl
  | nothing =>
    by_cases hf : s.lifecycle = .fatal
    · rw [hf, wordOutcome_fatal]; rfl
    · have hout : wordOutcome w s.lifecycle = .nop := by
        simp [wordOutcome, takesNoLen, usesMessage, hf, hrsv, hop, hlen, Instr.op, Instr.len]
      rw [hout]; rfl
  | loaded hf =>
    have hout : wordOutcome w s.lifecycle = .init := by
      simp [wordOutcome, takesNoLen, usesMessage, hf, hrsv, hop, hlen, Instr.op, Instr.len]
    rw [hout]; rfl
  | keySize hn hf =>
    have hout : wordOutcome w s.lifecycle = .keySize := by
      simp [wordOutcome, takesNoLen, usesMessage, hf, hrsv, hop, hlen, hn, Instr.op, Instr.len]
    rw [hout, applyOutcome, hlen]; rfl
  | badLen hn hf =>
    have hout : wordOutcome w s.lifecycle = .badLen := by
      simp [wordOutcome, takesNoLen, hf, hrsv, hop, hlen, hn, Instr.op, Instr.len]
    rw [hout, applyOutcome, hop, hlen]; rfl
  | notKeyed hi hl => rw [hl, (wordOutcome_of_usesOpenMessage hd hi).1, applyOutcome, hop]; rfl
  | consumed hi hl => rw [hl, (wordOutcome_of_usesOpenMessage hd hi).2, applyOutcome, hop]; rfl
  | absorbed hn hl =>
    have hout : wordOutcome w s.lifecycle = .update := by
      simp [wordOutcome, takesNoLen, usesMessage, hl, hrsv, hop, hlen, hn, Instr.op, Instr.len]
    rw [hout, applyOutcome, hlen]; rfl
  | finished hl =>
    have hout : wordOutcome w s.lifecycle = .finish := by
      simp [wordOutcome, takesNoLen, usesMessage, hl, hrsv, hop, hlen, Instr.op, Instr.len]
    rw [hout]; rfl
  | verified hl =>
    have hout : wordOutcome w s.lifecycle = .verify := by
      simp [wordOutcome, takesNoLen, usesMessage, hl, hrsv, hop, hlen, Instr.op, Instr.len]
    rw [hout]; rfl
  | forbidden hf =>
    have hout : wordOutcome w s.lifecycle = .resetForbidden := by
      simp [wordOutcome, hf, hrsv, hop, Instr.op]
    rw [hout, applyOutcome, hop]; rfl

end

/-- Settles O6: a decoded word has its command's effect, which is the outcome R202 decides; a rejected word is ignored in FATAL and
outside it is ILLEGAL_CMD on both sides. -/
theorem everyWordFollowsTheCheckOrder : Obligations.EveryWordFollowsTheCheckOrder := by
  intro w s
  cases hd : decode w with
  | ok i =>
    obtain ⟨t, hexec, heffect⟩ := exec_effect i s
    rw [issueCommand_of_decoded hd, hexec, applyOutcome_of_effect hd heffect]
  | error e =>
    by_cases hs : s.lifecycle = .fatal
    · rw [issueCommand_of_fatal w hs, hs, wordOutcome_fatal, applyOutcome]
    · rw [wordOutcome_of_rejected ⟨e, hd⟩ hs, (illegalWordsAreExactlyR86AndAreFatal w).2 s ⟨e, hd⟩ hs, applyOutcome]

end Machine

end Sys2Proof
end

section
/-! PROOF. FATAL and idleness (60_exceptions.md R203, R205, R215): the ELEN a fatal code records, what a step can do to a state in
FATAL, and the steps of an empty queue and of a power-down. -/

namespace Sys2Proof.Machine

/-- 60_exceptions.md R203: of the codes that enter FATAL, only BAD_LEN records the LEN. -/
theorem recordedLen_of_ne_keySize {code : ErrorCode} (h : code ≠ .keySize) (len : Nat) :
    recordedLen code len = if code = .badLen then BitVec.ofNat 8 len else 0 := by
  cases code with
  | keySize => exact absurd rfl h
  | badLen => rfl
  | none | resetForbidden | notKeyed | consumed | illegalCmd => rfl

/-- Settles O42: `enterFatal` is that record update, with ELEN by `recordedLen_of_ne_keySize`. -/
theorem fatalEntryZeroizesAndLatchesTheError : Obligations.FatalEntryZeroizesAndLatchesTheError := by
  intro code op len s _ hkeySize
  rw [← recordedLen_of_ne_keySize hkeySize]
  rfl

theorem step_of_pending_nil {s : State} (h : s.pending = []) : step s = .next s := by
  simp only [step, stepPending, h]

theorem step_of_pending_powerDown {s : State} {rest : List HostEvent} (h : s.pending = .powerDown :: rest) :
    step s = .next (hardwareReset { s with pending := rest }) := by
  simp only [step, stepPending, h, performEvent]

/-- Settles O10: an empty queue gives no event to perform, and the two reset events are performed alike on the same rest. -/
theorem idlenessChangesNothingAndPowerDownResets : Obligations.IdlenessChangesNothingAndPowerDownResets := by
  refine ⟨fun _ => step_of_pending_nil, ?powerDown⟩
  rintro s _ rest hs rfl
  rw [step_of_pending_powerDown hs, step_of_pending_hardwareReset rfl]

theorem readReg_status_state (s : State) : (readReg .status s).extractLsb' 0 2 = s.lifecycle.code :=
  BitVec.extractLsb'_append_eq_right

/-- In FATAL a command has the effect `ignored` and no other. -/
theorem Effect.eq_of_fatal {i : Instr} {s t : State} (he : Effect i s t) (hs : s.lifecycle = .fatal) : t = s := by
  have hexec := (exec_of_effect he).symm.trans (exec_of_effect (.ignored hs))
  injection hexec

/-- 60_exceptions.md R205: a step other than a reset stores a word, answers, or ignores a command, and keeps STATE = FATAL. -/
theorem StepEffect.reset_of_leaves_fatal {s t : State} (h : StepEffect s t) (hs : s.lifecycle = .fatal)
    (ht : t.lifecycle ≠ .fatal) : ∃ rest, s.pending = .hardwareReset :: rest ∨ s.pending = .powerDown :: rest := by
  cases h with
  | hardwareReset hp => exact ⟨_, hp⟩
  | idle | answered | keyWritten | dinWritten | candWritten => exact absurd hs ht
  | command _ _ he =>
    rw [he.eq_of_fatal hs] at ht
    exact absurd hs ht
  | illegal =>
    rw [illegalWord_of_fatal (s := s.served _ _ _) hs] at ht
    exact absurd hs ht

/-- Settles O43: every word and command is ignored in FATAL, the register writes are those of `writeReg`, STATUS shows the code of
STATE, and of the effects of a step only the reset leaves FATAL. -/
theorem fatalIgnoresCommandsUntilHardwareReset : Obligations.FatalIgnoresCommandsUntilHardwareReset := by
  intro s hs
  refine ⟨fun w => issueCommand_of_fatal w hs, fun i => exec_of_effect (.ignored hs), fun j v => writeReg_key j v s,
    fun j v => writeReg_din j v s, fun j v => writeReg_cand j v s, ?status, fun t hstep =>
    (stepEffect_of_step hstep).reset_of_leaves_fatal hs⟩
  case status => rw [readReg_status_state, hs, Lifecycle.code]

end Sys2Proof.Machine
end

section
/-! PROOF. Encoding (30_encoding.md sections 1, 2, 4): a word is its three fields, so the decoder undoes the encoder and the encoder the
decoder; the word of a command as `(len << 8) | OP`. -/

namespace Sys2Proof

open Laws.EncodedFields (len_lt of_len_lt)

theorem wellFormed_iff_len_lt (i : Instr) : i.wellFormed = true ↔ i.len < 256 := by
  refine ⟨len_lt, fun h => ?_⟩
  cases i with
  | nop | finish | verify => rfl
  | init n | update n | reset n => exact decide_eq_true h

theorem eq_of_fields_eq {w w' : Word} (hrsv : rsvField w = rsvField w') (hlen : lenField w = lenField w')
    (hop : opField w = opField w') : w = w' := by
  have hw := w.isLt
  have hw' := w'.isLt
  simp only [rsvField, lenField, opField, ← BitVec.toNat_inj, BitVec.extractLsb'_toNat, Nat.shiftRight_eq_div_pow]
    at hrsv hlen hop ⊢
  omega

/-- Settles O1: the three fields of the encoding are RSV 0, the command's LEN and its opcode, and the decoder's equation for that
opcode gives the command back. -/
theorem encodeThenDecodeGivesTheCommand : Obligations.EncodeThenDecodeGivesTheCommand := by
  intro i hwf
  obtain ⟨hrsv, hlen, hop⟩ := of_len_lt (len_lt hwf)
  cases i with
  | nop => rw [decode_of_op_nop hrsv hop, noOperand_accepts_iff]; exact ⟨hlen, rfl⟩
  | init n => rw [decode_of_op_init hrsv hop, hlen]; rfl
  | update n => rw [decode_of_op_update hrsv hop, hlen]; rfl
  | finish => rw [decode_of_op_finish hrsv hop, noOperand_accepts_iff]; exact ⟨hlen, rfl⟩
  | verify => rw [decode_of_op_verify hrsv hop, noOperand_accepts_iff]; exact ⟨hlen, rfl⟩
  | reset n => rw [decode_of_op_reset hrsv hop, hlen]; rfl

/-- Settles O2: the word has the fields of its command, and so has the command's encoding. -/
theorem decodedWordIsTheEncodingOfItsCommand : Obligations.DecodedWordIsTheEncodingOfItsCommand := by
  intro w i hd
  have hlt : i.len < 256 := Machine.decode_len_lt hd
  obtain ⟨hrsv, hop, hlen⟩ := fields_of_decoded hd
  obtain ⟨hrsv', hlen', hop'⟩ := of_len_lt hlt
  exact ⟨(wellFormed_iff_len_lt i).mpr hlt,
    eq_of_fields_eq (hrsv'.trans hrsv.symm) (hlen'.trans hlen.symm) (hop'.trans hop.symm)⟩

/-- Settles O4: each word is decoded by evaluation. -/
theorem writtenWordsDecodeToTheirCommands : Obligations.WrittenWordsDecodeToTheirCommands := by
  unfold Obligations.WrittenWordsDecodeToTheirCommands
  decide

/-- 30_encoding.md R89: `(len << 8) | OP`. -/
theorem encode_eq_or_shiftLeft {i : Instr} (h : i.len < 256) :
    encode i = i.op.setWidth 32 ||| BitVec.ofNat 32 i.len <<< 8 := by
  have hop : i.op.toNat < 2 ^ 8 := i.op.isLt
  have hlen : (BitVec.ofNat 32 i.len <<< 8).toNat = 2 ^ 8 * i.len := by
    rw [BitVec.toNat_shiftLeft, Nat.shiftLeft_eq, BitVec.toNat_ofNat]
    omega
  apply BitVec.eq_of_toNat_eq
  rw [BitVec.toNat_or, hlen, BitVec.toNat_setWidth, Nat.mod_eq_of_lt (by omega), Machine.or_eq_add_of_lt _ _ _ hop]
  simp only [encode, Machine.append_toNat, BitVec.toNat_ofNat]
  omega

theorem assemble_of_accepted {i : Instr} (h : i.assemblerAccepts = true) : assemble i = some (encode i) := if_pos h

theorem assemble_of_refused {i : Instr} (h : i.assemblerAccepts = false) : assemble i = none :=
  if_neg (ne_true_of_eq_false h)

/-- Settles O5: the operand-free words by evaluation; an accepted operand by `encode_eq_or_shiftLeft`; a refused one by the
assembler's test. -/
theorem assemblerGivesTheWordsOfTheSyntaxTable : Obligations.AssemblerGivesTheWordsOfTheSyntaxTable := by
  refine ⟨by decide, by decide, by decide, by decide, fun n hn => ?init, fun n hn => ?update, fun n hn => ?noInit,
    fun n hn => ?noUpdate, fun n hn => ?noReset⟩
  case init =>
    have hacc : (Instr.init n).assemblerAccepts = true := decide_eq_true hn
    rw [assemble_of_accepted hacc, encode_eq_or_shiftLeft (i := .init n) (Nat.lt_succ_of_le hn)]
    rfl
  case update =>
    have hacc : (Instr.update n).assemblerAccepts = true := decide_eq_true hn
    rw [assemble_of_accepted hacc, encode_eq_or_shiftLeft (i := .update n) (hn.trans_lt (by decide))]
    rfl
  case noInit => exact assemble_of_refused (i := .init n) (decide_eq_false hn.not_ge)
  case noUpdate => exact assemble_of_refused (i := .update n) (decide_eq_false hn.not_ge)
  case noReset => exact assemble_of_refused (i := .reset n) (beq_eq_false_iff_ne.mpr hn)

end Sys2Proof
end

section
/-! PROOF. The fold (41_update.md R127-R133): the limbs of the block and of the sum, the five dot products, the carries and the wrap of
the top excess, each exact and bounded; then the value modulo p, in which 2^130 counts as 5. -/

namespace Sys2Proof.Machine

/-- The limbs of a decoded block (41_update.md R127). -/
def Limbs.blockBounded (m : Limbs) : Prop :=
  m.l0.toNat < 2 ^ 26 ∧ m.l1.toNat < 2 ^ 26 ∧ m.l2.toNat < 2 ^ 26 ∧ m.l3.toNat < 2 ^ 26 ∧ m.l4.toNat < 2 ^ 25

/-- The limbs of an accumulator with a block added (41_update.md R131). -/
def Limbs.sumBounded (a : Limbs) : Prop :=
  a.l0.toNat ≤ 0x7fffffe ∧ a.l1.toNat ≤ 0x8000024 ∧ a.l2.toNat ≤ 0x7fffffe ∧ a.l3.toNat ≤ 0x7fffffe ∧
    a.l4.toNat ≤ 0x5fffffe

/-- The partial sums of a bounded sum and a clamped multiplier: each bound is the dot product of the limbs' bounds (41_update.md R131). -/
def Sums.bounded (d : Sums) : Prop :=
  d.d0.toNat ≤ 0x1d8000965dfff44 ∧ d.d1.toNat ≤ 0x1580295d9fff7f4 ∧ d.d2.toNat ≤ 0xd8a58019fdda84 ∧
    d.d3.toNat ≤ 0x8160005976a5e4 ∧ d.d4.toNat ≤ 0x7800006fa97fdc

/-- The value of partial sums, each weighted by its position as a limb is. -/
def Sums.val (d : Sums) : Nat :=
  d.d0.toNat + 2 ^ 26 * d.d1.toNat + 2 ^ 52 * d.d2.toNat + 2 ^ 78 * d.d3.toNat + 2 ^ 104 * d.d4.toNat

/-! The block and the sum -/

theorem decodeBlock_bounded (b : Block) {hibit : Word} (hflag : hibit = 0#32 ∨ hibit = 0x1000000#32) :
    (decodeBlock b hibit).blockBounded := by
  obtain ⟨-, h0, h1, h2, h3, -, h4⟩ := decodeBlockSlicesTheValue b hibit
  refine ⟨?_, ?_, ?_, ?_, h4 hflag⟩ <;> omega

/-- 41_update.md R127: the limbs of a block have its value, with the flag at bit 128. -/
theorem decodeBlock_val (b : Block) {hibit : Word} (hflag : hibit = 0#32 ∨ hibit = 0x1000000#32) :
    (decodeBlock b hibit).val = leNat b.toList + 2 ^ 104 * hibit.toNat := by
  obtain ⟨-, h0, h1, h2, h3, h4, -⟩ := decodeBlockSlicesTheValue b hibit
  have htop : leNat b.toList / 2 ^ 104 < 2 ^ 24 := Nat.div_lt_of_lt_mul (leNat_block_lt b)
  rw [or_hibit _ htop _ hflag] at h4
  simp only [Limbs.val, h0, h1, h2, h3, h4]
  omega

section
variable {h m : Limbs} (hh : h.accBounded) (hm : m.blockBounded)
include hh hm

theorem addLimbs_toNat :
    (addLimbs h m).l0.toNat = h.l0.toNat + m.l0.toNat ∧ (addLimbs h m).l1.toNat = h.l1.toNat + m.l1.toNat ∧
      (addLimbs h m).l2.toNat = h.l2.toNat + m.l2.toNat ∧ (addLimbs h m).l3.toNat = h.l3.toNat + m.l3.toNat ∧
      (addLimbs h m).l4.toNat = h.l4.toNat + m.l4.toNat := by
  obtain ⟨h0, h1, h2, h3, h4⟩ := hh
  obtain ⟨m0, m1, m2, m3, m4⟩ := hm
  refine ⟨add_toNat32 _ _ ?_, add_toNat32 _ _ ?_, add_toNat32 _ _ ?_, add_toNat32 _ _ ?_, add_toNat32 _ _ ?_⟩ <;> omega

theorem addLimbs_bounded : (addLimbs h m).sumBounded := by
  obtain ⟨e0, e1, e2, e3, e4⟩ := addLimbs_toNat hh hm
  obtain ⟨h0, h1, h2, h3, h4⟩ := hh
  obtain ⟨m0, m1, m2, m3, m4⟩ := hm
  refine ⟨?_, ?_, ?_, ?_, ?_⟩ <;> omega

theorem addLimbs_val : (addLimbs h m).val = h.val + m.val := by
  obtain ⟨e0, e1, e2, e3, e4⟩ := addLimbs_toNat hh hm
  simp only [Limbs.val, e0, e1, e2, e3, e4]
  ring

end

/-! The product modulo p -/

/-- 2^130 counts as 5 modulo p (00_scope.md R8). -/
theorem add_two_pow_130_mod (x q : Nat) : (x + 2 ^ 130 * q) % (2 ^ 130 - 5) = (x + 5 * q) % (2 ^ 130 - 5) := by
  have hsplit : x + 2 ^ 130 * q = x + 5 * q + (2 ^ 130 - 5) * q := by omega
  rw [hsplit, Nat.add_mul_mod_self_left]

theorem modP_eq_of_add_excess_eq {x y q : Nat} (h : x + 2 ^ 130 * q = y + 5 * q) : x % (2 ^ 130 - 5) = y % (2 ^ 130 - 5) :=
  Nat.ModEq.add_right_cancel' (5 * q) ((add_two_pow_130_mod x q).symm.trans (congrArg (· % _) h))

/-- The limb products of `a * r` whose weight is below 2^130. -/
def productLow (a r : Limbs) : Nat :=
  a.l0.toNat * r.l0.toNat + 2 ^ 26 * (a.l0.toNat * r.l1.toNat + a.l1.toNat * r.l0.toNat)
    + 2 ^ 52 * (a.l0.toNat * r.l2.toNat + a.l1.toNat * r.l1.toNat + a.l2.toNat * r.l0.toNat)
    + 2 ^ 78 * (a.l0.toNat * r.l3.toNat + a.l1.toNat * r.l2.toNat + a.l2.toNat * r.l1.toNat + a.l3.toNat * r.l0.toNat)
    + 2 ^ 104 * (a.l0.toNat * r.l4.toNat + a.l1.toNat * r.l3.toNat + a.l2.toNat * r.l2.toNat + a.l3.toNat * r.l1.toNat
      + a.l4.toNat * r.l0.toNat)

/-- The limb products of `a * r` whose weight is 2^130 or more, divided by 2^130. -/
def productHigh (a r : Limbs) : Nat :=
  a.l1.toNat * r.l4.toNat + a.l2.toNat * r.l3.toNat + a.l3.toNat * r.l2.toNat + a.l4.toNat * r.l1.toNat
    + 2 ^ 26 * (a.l2.toNat * r.l4.toNat + a.l3.toNat * r.l3.toNat + a.l4.toNat * r.l2.toNat)
    + 2 ^ 52 * (a.l3.toNat * r.l4.toNat + a.l4.toNat * r.l3.toNat) + 2 ^ 78 * (a.l4.toNat * r.l4.toNat)

theorem val_mul_val (a r : Limbs) : a.val * r.val = productLow a r + 2 ^ 130 * productHigh a r := by
  simp only [Limbs.val, productLow, productHigh]
  ring

/-! The partial sums -/

/-- A sum of five u64 values that does not wrap. -/
theorem add_five_toNat64 (v w x y z : DWord) (h : v.toNat + w.toNat + x.toNat + y.toNat + z.toNat < 2 ^ 64) :
    (v + w + x + y + z).toNat = v.toNat + w.toNat + x.toNat + y.toNat + z.toNat := by
  simp only [BitVec.toNat_add]
  omega

/-- The dot product of a sum with a row of multiplier limbs: what it is at most, and that it is exact when that fits. -/
theorem dot_toNat {a : Limbs} (ha : a.sumBounded) (x : Limbs) {bound : Nat} (hbound : bound < 2 ^ 64)
    (hx : 0x7fffffe * x.l0.toNat + 0x8000024 * x.l1.toNat + 0x7fffffe * x.l2.toNat + 0x7fffffe * x.l3.toNat
      + 0x5fffffe * x.l4.toNat ≤ bound) :
    (mul64 a.l0 x.l0 + mul64 a.l1 x.l1 + mul64 a.l2 x.l2 + mul64 a.l3 x.l3 + mul64 a.l4 x.l4).toNat =
        a.l0.toNat * x.l0.toNat + a.l1.toNat * x.l1.toNat + a.l2.toNat * x.l2.toNat + a.l3.toNat * x.l3.toNat
          + a.l4.toNat * x.l4.toNat ∧
      (mul64 a.l0 x.l0 + mul64 a.l1 x.l1 + mul64 a.l2 x.l2 + mul64 a.l3 x.l3 + mul64 a.l4 x.l4).toNat ≤ bound := by
  obtain ⟨h0, h1, h2, h3, h4⟩ := ha
  have hle : a.l0.toNat * x.l0.toNat + a.l1.toNat * x.l1.toNat + a.l2.toNat * x.l2.toNat + a.l3.toNat * x.l3.toNat
      + a.l4.toNat * x.l4.toNat ≤ bound := le_trans (by gcongr) hx
  rw [add_five_toNat64] <;> simp only [mul64_toNat, true_and]
  · exact hle
  · exact hle.trans_lt hbound

section
variable {a r : Limbs} (ha : a.sumBounded) (hr : r.clamped)
include ha hr

/-- 41_update.md R129, R131: the five sums are exact and bounded. -/
theorem partialSums_exact_and_bounded :
    ((partialSums a r).d0.toNat = a.l0.toNat * r.l0.toNat + a.l1.toNat * (5 * r.l4.toNat) + a.l2.toNat * (5 * r.l3.toNat)
        + a.l3.toNat * (5 * r.l2.toNat) + a.l4.toNat * (5 * r.l1.toNat) ∧
      (partialSums a r).d1.toNat = a.l0.toNat * r.l1.toNat + a.l1.toNat * r.l0.toNat + a.l2.toNat * (5 * r.l4.toNat)
        + a.l3.toNat * (5 * r.l3.toNat) + a.l4.toNat * (5 * r.l2.toNat) ∧
      (partialSums a r).d2.toNat = a.l0.toNat * r.l2.toNat + a.l1.toNat * r.l1.toNat + a.l2.toNat * r.l0.toNat
        + a.l3.toNat * (5 * r.l4.toNat) + a.l4.toNat * (5 * r.l3.toNat) ∧
      (partialSums a r).d3.toNat = a.l0.toNat * r.l3.toNat + a.l1.toNat * r.l2.toNat + a.l2.toNat * r.l1.toNat
        + a.l3.toNat * r.l0.toNat + a.l4.toNat * (5 * r.l4.toNat) ∧
      (partialSums a r).d4.toNat = a.l0.toNat * r.l4.toNat + a.l1.toNat * r.l3.toNat + a.l2.toNat * r.l2.toNat
        + a.l3.toNat * r.l1.toNat + a.l4.toNat * r.l0.toNat) ∧
      (partialSums a r).bounded := by
  obtain ⟨r0, r1, r2, r3, r4⟩ := hr
  have s1 : (times5 r.l1).toNat = 5 * r.l1.toNat := times5_toNat _ (by omega)
  have s2 : (times5 r.l2).toNat = 5 * r.l2.toNat := times5_toNat _ (by omega)
  have s3 : (times5 r.l3).toNat = 5 * r.l3.toNat := times5_toNat _ (by omega)
  have s4 : (times5 r.l4).toNat = 5 * r.l4.toNat := times5_toNat _ (by omega)
  obtain ⟨e0, b0⟩ := dot_toNat ha ⟨r.l0, times5 r.l4, times5 r.l3, times5 r.l2, times5 r.l1⟩
    (bound := 0x1d8000965dfff44) (by norm_num) (by simp only [s1, s2, s3, s4]; omega)
  obtain ⟨e1, b1⟩ := dot_toNat ha ⟨r.l1, r.l0, times5 r.l4, times5 r.l3, times5 r.l2⟩
    (bound := 0x1580295d9fff7f4) (by norm_num) (by simp only [s2, s3, s4]; omega)
  obtain ⟨e2, b2⟩ := dot_toNat ha ⟨r.l2, r.l1, r.l0, times5 r.l4, times5 r.l3⟩
    (bound := 0xd8a58019fdda84) (by norm_num) (by simp only [s3, s4]; omega)
  obtain ⟨e3, b3⟩ := dot_toNat ha ⟨r.l3, r.l2, r.l1, r.l0, times5 r.l4⟩
    (bound := 0x8160005976a5e4) (by norm_num) (by simp only [s4]; omega)
  obtain ⟨e4, b4⟩ := dot_toNat ha ⟨r.l4, r.l3, r.l2, r.l1, r.l0⟩
    (bound := 0x7800006fa97fdc) (by norm_num) (by dsimp only; omega)
  rw [s1, s2, s3, s4] at e0
  rw [s2, s3, s4] at e1
  rw [s3, s4] at e2
  rw [s4] at e3
  exact ⟨⟨e0, e1, e2, e3, e4⟩, b0, b1, b2, b3, b4⟩

/-- The sums are the product of the two values, in which what reaches 2^130 counts times 5. -/
theorem partialSums_val_mod : (partialSums a r).val % (2 ^ 130 - 5) = a.val * r.val % (2 ^ 130 - 5) := by
  obtain ⟨⟨e0, e1, e2, e3, e4⟩, -⟩ := partialSums_exact_and_bounded ha hr
  have hlow : (partialSums a r).val = productLow a r + 5 * productHigh a r := by
    simp only [Sums.val, e0, e1, e2, e3, e4, productLow, productHigh]
    ring
  rw [hlow, val_mul_val, add_two_pow_130_mod]

end

/-! The carries and the wrap -/

section
variable {d : Sums} (hd : d.bounded)
include hd

/-- 41_update.md R131: no addition of a carry wraps. -/
theorem carriedSums_toNat :
    (carriedSums d).d0.toNat = d.d0.toNat ∧
      (carriedSums d).d1.toNat = d.d1.toNat + (carriedSums d).d0.toNat / 2 ^ 26 ∧
      (carriedSums d).d2.toNat = d.d2.toNat + (carriedSums d).d1.toNat / 2 ^ 26 ∧
      (carriedSums d).d3.toNat = d.d3.toNat + (carriedSums d).d2.toNat / 2 ^ 26 ∧
      (carriedSums d).d4.toNat = d.d4.toNat + (carriedSums d).d3.toNat / 2 ^ 26 := by
  obtain ⟨h0, h1, h2, h3, h4⟩ := hd
  have add_carry (x y : DWord) (hx : x.toNat < 2 ^ 63) : (x + (y >>> 26)).toNat = x.toNat + y.toNat / 2 ^ 26 := by
    have hy := y.isLt
    rw [← sumCarry_toNat, add_toNat64]
    rw [sumCarry_toNat]
    omega
  exact ⟨rfl, add_carry _ _ (by omega), add_carry _ _ (by omega), add_carry _ _ (by omega), add_carry _ _ (by omega)⟩

/-- 41_update.md R131: the carried sums and the carries out of them. -/
theorem carriedSums_bounded :
    ((carriedSums d).d0.toNat < 2 ^ 57 ∧ (carriedSums d).d1.toNat < 2 ^ 57 ∧ (carriedSums d).d2.toNat < 2 ^ 57 ∧
        (carriedSums d).d3.toNat < 2 ^ 57 ∧ (carriedSums d).d4.toNat < 2 ^ 57) ∧
      (carriedSums d).d0.toNat / 2 ^ 26 < 2 ^ 31 ∧ (carriedSums d).d1.toNat / 2 ^ 26 < 2 ^ 31 ∧
      (carriedSums d).d2.toNat / 2 ^ 26 < 2 ^ 30 ∧ (carriedSums d).d3.toNat / 2 ^ 26 < 2 ^ 30 ∧
      (carriedSums d).d4.toNat / 2 ^ 26 < 2 ^ 29 := by
  obtain ⟨e0, e1, e2, e3, e4⟩ := carriedSums_toNat hd
  obtain ⟨h0, h1, h2, h3, h4⟩ := hd
  refine ⟨⟨?_, ?_, ?_, ?_, ?_⟩, ?_, ?_, ?_, ?_, ?_⟩ <;> omega

/-- 41_update.md R131: the wrap of the top excess into limb 0 is exact, and stays below 2^32. -/
theorem wrappedLimb0_toNat :
    (wrappedLimb0 (carriedSums d)).toNat =
        (carriedSums d).d0.toNat % 2 ^ 26 + 5 * ((carriedSums d).d4.toNat / 2 ^ 26) ∧
      (wrappedLimb0 (carriedSums d)).toNat ≤ 0x9a0000b3 := by
  obtain ⟨e0, e1, e2, e3, e4⟩ := carriedSums_toNat hd
  obtain ⟨h0, h1, h2, h3, h4⟩ := hd
  have htop : (carriedSums d).d4.toNat / 2 ^ 26 ≤ 0x1e000024 := by omega
  have hexact : (wrappedLimb0 (carriedSums d)).toNat =
      (carriedSums d).d0.toNat % 2 ^ 26 + 5 * ((carriedSums d).d4.toNat / 2 ^ 26) := by
    simp only [wrappedLimb0, lo32_toNat, BitVec.toNat_add, BitVec.toNat_mul, BitVec.toNat_setWidth, and_limbMask_toNat,
      sumCarry_toNat, BitVec.toNat_ofNat]
    omega
  exact ⟨hexact, by omega⟩

theorem reduceSums_toNat :
    (reduceSums d).l0.toNat = (wrappedLimb0 (carriedSums d)).toNat % 2 ^ 26 ∧
      (reduceSums d).l1.toNat = (carriedSums d).d1.toNat % 2 ^ 26 + (wrappedLimb0 (carriedSums d)).toNat / 2 ^ 26 ∧
      (reduceSums d).l2.toNat = (carriedSums d).d2.toNat % 2 ^ 26 ∧
      (reduceSums d).l3.toNat = (carriedSums d).d3.toNat % 2 ^ 26 ∧
      (reduceSums d).l4.toNat = (carriedSums d).d4.toNat % 2 ^ 26 := by
  have hwrap : (wrappedLimb0 (carriedSums d)).toNat ≤ 0x9a0000b3 := (wrappedLimb0_toNat hd).2
  simp only [reduceSums, and_limbMask_toNat, lo32_toNat, BitVec.toNat_add, limbCarry_toNat]
  refine ⟨trivial, ?_, ?_, ?_, ?_⟩ <;> omega

/-- 41_update.md R133. -/
theorem reduceSums_accBounded : (reduceSums d).accBounded := by
  obtain ⟨l0, l1, l2, l3, l4⟩ := reduceSums_toNat hd
  have hwrap : (wrappedLimb0 (carriedSums d)).toNat ≤ 0x9a0000b3 := (wrappedLimb0_toNat hd).2
  refine ⟨?_, ?_, ?_, ?_, ?_⟩ <;> omega

/-- The carries only move weight, and the wrap takes 2^130 for 5. -/
theorem reduceSums_val_mod : (reduceSums d).val % (2 ^ 130 - 5) = d.val % (2 ^ 130 - 5) := by
  obtain ⟨e0, e1, e2, e3, e4⟩ := carriedSums_toNat hd
  obtain ⟨l0, l1, l2, l3, l4⟩ := reduceSums_toNat hd
  obtain ⟨hwrap, -⟩ := wrappedLimb0_toNat hd
  have hsame : (reduceSums d).val + 2 ^ 130 * ((carriedSums d).d4.toNat / 2 ^ 26) =
      d.val + 5 * ((carriedSums d).d4.toNat / 2 ^ 26) := by
    have s0 := Nat.div_add_mod (carriedSums d).d0.toNat (2 ^ 26)
    have s1 := Nat.div_add_mod (carriedSums d).d1.toNat (2 ^ 26)
    have s2 := Nat.div_add_mod (carriedSums d).d2.toNat (2 ^ 26)
    have s3 := Nat.div_add_mod (carriedSums d).d3.toNat (2 ^ 26)
    have s4 := Nat.div_add_mod (carriedSums d).d4.toNat (2 ^ 26)
    have so := Nat.div_add_mod (wrappedLimb0 (carriedSums d)).toNat (2 ^ 26)
    simp only [Limbs.val, Sums.val, l0, l1, l2, l3, l4]
    linarith
  exact modP_eq_of_add_excess_eq hsame

end

theorem fold_sums_bounded {h r : Limbs} (b : Block) {hibit : Word} (hh : h.accBounded) (hr : r.clamped)
    (hflag : hibit = 0#32 ∨ hibit = 0x1000000#32) : (partialSums (addLimbs h (decodeBlock b hibit)) r).bounded :=
  (partialSums_exact_and_bounded (addLimbs_bounded hh (decodeBlock_bounded b hflag)) hr).2

/-- Settles O26: the additions, the dot products, the carries and the wrap, each by its lemma. -/
theorem foldArithmeticNeverWraps : Obligations.FoldArithmeticNeverWraps := by
  intro h r b hibit hh hr hflag
  have hm := decodeBlock_bounded b hflag
  have ha := addLimbs_bounded hh hm
  obtain ⟨hsums, hd⟩ := partialSums_exact_and_bounded ha hr
  obtain ⟨hlt, hcarries⟩ := carriedSums_bounded hd
  exact ⟨addLimbs_toNat hh hm, ha, hsums, carriedSums_toNat hd, hlt, hcarries, wrappedLimb0_toNat hd⟩

/-- Settles O27: the reduction and the sums keep the residue, and the block adds its value with the flag. -/
theorem foldMultipliesModuloP : Obligations.FoldMultipliesModuloP := by
  intro h r b hibit hh hr hflag
  have hm := decodeBlock_bounded b hflag
  rw [fold, reduceSums_val_mod (fold_sums_bounded b hh hr hflag), partialSums_val_mod (addLimbs_bounded hh hm) hr,
    addLimbs_val hh hm, decodeBlock_val b hflag, Nat.add_assoc]

/-- Settles O28: the sums of a fold are bounded, and INV is what their reduction keeps. -/
theorem foldKeepsTheAccumulatorBound : Obligations.FoldKeepsTheAccumulatorBound :=
  fun _ _ b _ hh hr hflag => reduceSums_accBounded (fold_sums_bounded b hh hr hflag)

end Sys2Proof.Machine
end

section
/-! PROOF. The clamp (40_init.md R104, R106): it masks the 26-bit slices of the low key half, so its value is that half under the masks
put together; and a mask inside the low 26 bits sees no more of a word than those. -/

namespace Sys2Proof.Machine

/-- The clamp is a further mask on the limbs of the four words. -/
theorem clampLimbs_eq_and (t0 t1 t2 t3 : Word) :
    clampLimbs t0 t1 t2 t3 =
      ⟨(limbsOfWords t0 t1 t2 t3 0#32).l0 &&& 0x3ffffff#32, (limbsOfWords t0 t1 t2 t3 0#32).l1 &&& 0x3ffff03#32,
        (limbsOfWords t0 t1 t2 t3 0#32).l2 &&& 0x3ffc0ff#32, (limbsOfWords t0 t1 t2 t3 0#32).l3 &&& 0x3f03fff#32,
        (limbsOfWords t0 t1 t2 t3 0#32).l4 &&& 0x00fffff#32⟩ := by
  simp [clampLimbs, limbsOfWords, Config.limbMask, BitVec.and_assoc]

/-- Masking a value masks each of its slices with that slice of the mask. -/
theorem and_slice (x m k : Nat) : (x &&& m) / 2 ^ k % 2 ^ 26 = x / 2 ^ k % 2 ^ 26 &&& m / 2 ^ k % 2 ^ 26 := by
  rw [Nat.and_div_two_pow, Nat.and_mod_two_pow]

theorem clampLimbs_clamped (t0 t1 t2 t3 : Word) : (clampLimbs t0 t1 t2 t3).clamped := by
  rw [clampLimbs_eq_and]
  refine ⟨?_, ?_, ?_, ?_, ?_⟩ <;> exact Nat.and_le_right

/-- Settles O17: the limbs are the slices of the masked value, which is below 2^130, so they add up to it. -/
theorem clampIsTheMaskOfTheLowKeyHalf : Obligations.ClampIsTheMaskOfTheLowKeyHalf := by
  refine fun t0 t1 t2 t3 => ⟨?_, clampLimbs_clamped t0 t1 t2 t3⟩
  obtain ⟨h0, h1, h2, h3, h4⟩ := limbsOfWords_toNat t0 t1 t2 t3 0#32
  have hlt : leWords [t0, t1, t2, t3] < 2 ^ 128 := leWords_four_lt t0 t1 t2 t3
  generalize leWords [t0, t1, t2, t3] = x at *
  have m0 := and_slice x 0x0ffffffc0ffffffc0ffffffc0fffffff 0
  have m1 := and_slice x 0x0ffffffc0ffffffc0ffffffc0fffffff 26
  have m2 := and_slice x 0x0ffffffc0ffffffc0ffffffc0fffffff 52
  have m3 := and_slice x 0x0ffffffc0ffffffc0ffffffc0fffffff 78
  have m4 := and_slice x 0x0ffffffc0ffffffc0ffffffc0fffffff 104
  have hle : x &&& 0x0ffffffc0ffffffc0ffffffc0fffffff ≤ 0x0ffffffc0ffffffc0ffffffc0fffffff := Nat.and_le_right
  rw [Nat.mod_eq_of_lt (by omega : x / 2 ^ 104 < 2 ^ 26)] at m4
  rw [clampLimbs_eq_and]
  simp only [Limbs.val, BitVec.toNat_and, h0, h1, h2, h3, h4, BitVec.toNat_ofNat, Nat.zero_mod, Nat.or_zero]
  norm_num at m0 m1 m2 m3 m4 ⊢
  rw [← m0, ← m1, ← m2, ← m3, ← m4]
  omega

/-- Under a mask inside the low 26 bits, words equal in those bits are equal. -/
theorem and_eq_and_of_mod_eq {x y m : Word} (hm : Config.limbMask &&& m = m) (h : x.toNat % 2 ^ 26 = y.toNat % 2 ^ 26) :
    x &&& m = y &&& m := by
  have hlow : x &&& Config.limbMask = y &&& Config.limbMask :=
    BitVec.eq_of_toNat_eq (by rw [and_limbMask_toNat, and_limbMask_toNat, h])
  rw [← hm, ← BitVec.and_assoc, hlow, BitVec.and_assoc]

/-- Settles O18: limb by limb, both forms agree in the 26 bits the mask can see. -/
theorem clampFromByteOffsetsIsTheSame : Obligations.ClampFromByteOffsetsIsTheSame := by
  intro k
  simp only [clampLimbs, Limbs.mk.injEq, and_true, true_and]
  refine ⟨and_eq_and_of_mod_eq rfl ?_, and_eq_and_of_mod_eq rfl ?_, and_eq_and_of_mod_eq rfl ?_⟩ <;>
    simp only [shift_pair_toNat _ _ 26 6 rfl, shift_pair_toNat _ _ 20 12 rfl, shift_pair_toNat _ _ 14 18 rfl,
      BitVec.toNat_ushiftRight, Nat.shiftRight_eq_div_pow, le32_toNat] <;>
    omega

end Sys2Proof.Machine
end

section
/-! PROOF. The tag pipeline (42_finish.md R154-R161): Carry keeps the residue modulo p, CondSub is the residue, Pack keeps the low
128 bits; with the pad's addition and the fold of the final block they make the tag. -/

namespace Sys2Proof.Machine

/-! Carry -/

/-- The limbs of Carry's pass with the carries added and nothing masked yet (42_finish.md R154). -/
def Limbs.carried (h : Limbs) : Limbs :=
  let h1 := h.l1 + (h.l0 >>> 26)
  let h2 := h.l2 + (h1 >>> 26)
  let h3 := h.l3 + (h2 >>> 26)
  ⟨h.l0, h1, h2, h3, h.l4 + (h3 >>> 26)⟩

/-- Limb 0 of Carry with the top excess wrapped in (42_finish.md R154). -/
def Limbs.wrapped0 (h : Limbs) : Word := (h.l0 &&& Config.limbMask) + (h.l4 >>> 26) * 5#32

theorem carry_eq (h : Limbs) :
    carry h = ⟨h.carried.wrapped0 &&& Config.limbMask, (h.carried.l1 &&& Config.limbMask) + (h.carried.wrapped0 >>> 26),
      h.carried.l2 &&& Config.limbMask, h.carried.l3 &&& Config.limbMask, h.carried.l4 &&& Config.limbMask⟩ := rfl

theorem add_limbCarry_toNat (x y : Word) (hx : x.toNat < 2 ^ 31) : (x + (y >>> 26)).toNat = x.toNat + y.toNat / 2 ^ 26 := by
  have hy := y.isLt
  rw [← limbCarry_toNat, add_toNat32]
  rw [limbCarry_toNat]
  omega

theorem carried_toNat {h : Limbs} (h1 : h.l1.toNat < 2 ^ 31) (h2 : h.l2.toNat < 2 ^ 31) (h3 : h.l3.toNat < 2 ^ 31)
    (h4 : h.l4.toNat < 2 ^ 31) :
    h.carried.l0.toNat = h.l0.toNat ∧ h.carried.l1.toNat = h.l1.toNat + h.carried.l0.toNat / 2 ^ 26 ∧
      h.carried.l2.toNat = h.l2.toNat + h.carried.l1.toNat / 2 ^ 26 ∧
      h.carried.l3.toNat = h.l3.toNat + h.carried.l2.toNat / 2 ^ 26 ∧
      h.carried.l4.toNat = h.l4.toNat + h.carried.l3.toNat / 2 ^ 26 :=
  ⟨rfl, add_limbCarry_toNat _ _ h1, add_limbCarry_toNat _ _ h2, add_limbCarry_toNat _ _ h3, add_limbCarry_toNat _ _ h4⟩

theorem carry_toNat (h : Limbs) :
    (carry h).l0.toNat = h.carried.wrapped0.toNat % 2 ^ 26 ∧
      (carry h).l1.toNat = h.carried.l1.toNat % 2 ^ 26 + h.carried.wrapped0.toNat / 2 ^ 26 ∧
      (carry h).l2.toNat = h.carried.l2.toNat % 2 ^ 26 ∧ (carry h).l3.toNat = h.carried.l3.toNat % 2 ^ 26 ∧
      (carry h).l4.toNat = h.carried.l4.toNat % 2 ^ 26 := by
  rw [carry_eq]
  simp only [and_limbMask_toNat, true_and, and_true]
  rw [add_limbCarry_toNat] <;> rw [and_limbMask_toNat]
  omega

section
variable {h : Limbs} (hh : h.accBounded)
include hh

theorem carried_toNat_of_accBounded :
    h.carried.l0.toNat = h.l0.toNat ∧ h.carried.l1.toNat = h.l1.toNat + h.carried.l0.toNat / 2 ^ 26 ∧
      h.carried.l2.toNat = h.l2.toNat + h.carried.l1.toNat / 2 ^ 26 ∧
      h.carried.l3.toNat = h.l3.toNat + h.carried.l2.toNat / 2 ^ 26 ∧
      h.carried.l4.toNat = h.l4.toNat + h.carried.l3.toNat / 2 ^ 26 := by
  obtain ⟨-, h1, h2, h3, h4⟩ := hh
  exact carried_toNat (by omega) (by omega) (by omega) (by omega)

theorem carried_wrapped0_toNat :
    h.carried.wrapped0.toNat = h.carried.l0.toNat % 2 ^ 26 + 5 * (h.carried.l4.toNat / 2 ^ 26) := by
  obtain ⟨e0, e1, e2, e3, e4⟩ := carried_toNat_of_accBounded hh
  obtain ⟨h0, h1, h2, h3, h4⟩ := hh
  simp only [Limbs.wrapped0, BitVec.toNat_add, BitVec.toNat_mul, and_limbMask_toNat, limbCarry_toNat, BitVec.toNat_ofNat]
  omega

/-- Only a limb 1 over 2^26 carries on; it is left small, so that the re-carry from limb 0 does not fill it again. -/
theorem carried_excess :
    h.carried.l1.toNat < 2 ^ 26 ∧ h.carried.l4.toNat / 2 ^ 26 = 0 ∨
      h.carried.l1.toNat % 2 ^ 26 ≤ 0x25 ∧ h.carried.l4.toNat / 2 ^ 26 ≤ 1 := by
  obtain ⟨e0, e1, e2, e3, e4⟩ := carried_toNat_of_accBounded hh
  obtain ⟨h0, h1, h2, h3, h4⟩ := hh
  by_cases hfull : h.l1.toNat < 2 ^ 26
  · have c1 : h.carried.l1.toNat / 2 ^ 26 = 0 := by omega
    have c2 : h.carried.l2.toNat / 2 ^ 26 = 0 := by omega
    have c3 : h.carried.l3.toNat / 2 ^ 26 = 0 := by omega
    exact .inl ⟨by omega, by omega⟩
  · have c1 : h.carried.l1.toNat / 2 ^ 26 = 1 := by omega
    have c2 : h.carried.l2.toNat / 2 ^ 26 ≤ 1 := by omega
    have c3 : h.carried.l3.toNat / 2 ^ 26 ≤ 1 := by omega
    exact .inr ⟨by omega, by omega⟩

theorem carry_canonical : (carry h).canonical := by
  obtain ⟨c0, c1, c2, c3, c4⟩ := carry_toNat h
  have hwrap := carried_wrapped0_toNat hh
  have hl0 : h.carried.l0.toNat < 2 ^ 26 := hh.1
  have hl1 : (carry h).l1.toNat < 2 ^ 26 := by
    obtain ⟨hsmall, htop⟩ | ⟨hsmall, htop⟩ := carried_excess hh <;> omega
  exact ⟨by omega, hl1, by omega, by omega, by omega⟩

theorem carry_val_mod : (carry h).val % (2 ^ 130 - 5) = h.val % (2 ^ 130 - 5) := by
  obtain ⟨e0, e1, e2, e3, e4⟩ := carried_toNat_of_accBounded hh
  obtain ⟨c0, c1, c2, c3, c4⟩ := carry_toNat h
  have hwrap := carried_wrapped0_toNat hh
  have hsame : (carry h).val + 2 ^ 130 * (h.carried.l4.toNat / 2 ^ 26) = h.val + 5 * (h.carried.l4.toNat / 2 ^ 26) := by
    have s0 := Nat.div_add_mod h.carried.l0.toNat (2 ^ 26)
    have s1 := Nat.div_add_mod h.carried.l1.toNat (2 ^ 26)
    have s2 := Nat.div_add_mod h.carried.l2.toNat (2 ^ 26)
    have s3 := Nat.div_add_mod h.carried.l3.toNat (2 ^ 26)
    have s4 := Nat.div_add_mod h.carried.l4.toNat (2 ^ 26)
    have so := Nat.div_add_mod h.carried.wrapped0.toNat (2 ^ 26)
    simp only [Limbs.val, c0, c1, c2, c3, c4]
    linarith
  exact modP_eq_of_add_excess_eq hsame

end

theorem val_lt_of_canonical {h : Limbs} (hh : h.canonical) : h.val < 2 ^ 130 := by
  obtain ⟨h0, h1, h2, h3, h4⟩ := hh
  simp only [Limbs.val]
  omega

/-- Settles O31: the pass and its wrap keep the residue, and every limb but the re-carried one is masked. -/
theorem carryMakesTheAccumulatorCanonical : Obligations.CarryMakesTheAccumulatorCanonical :=
  fun _ hh => ⟨carry_canonical hh, val_lt_of_canonical (carry_canonical hh), carry_val_mod hh⟩

/-! CondSub -/

/-- The limbs of `h + 5` with the carries added (42_finish.md R155). -/
def Limbs.plus5 (h : Limbs) : Limbs := Limbs.carried ⟨h.l0 + 5#32, h.l1, h.l2, h.l3, h.l4⟩

theorem minusP_eq (h : Limbs) :
    minusP h = ⟨h.plus5.l0 &&& Config.limbMask, h.plus5.l1 &&& Config.limbMask, h.plus5.l2 &&& Config.limbMask,
      h.plus5.l3 &&& Config.limbMask, h.plus5.l4 - 0x4000000#32⟩ := rfl

/-- g4 wraps below 0 (42_finish.md R155). -/
theorem minusP_l4_toNat (h : Limbs) : (minusP h).l4.toNat = (h.plus5.l4.toNat + (2 ^ 32 - 2 ^ 26)) % 2 ^ 32 := by
  rw [minusP_eq, BitVec.toNat_sub, BitVec.toNat_ofNat, Nat.add_comm]
  rfl

theorem selectMask_of_msb (g4 : Word) : selectMask g4 = if g4.msb then 0#32 else 0xffffffff#32 := by
  rw [selectMask, ushiftRight_31]
  split <;> rfl

section
variable {h : Limbs} (hh : h.canonical)
include hh

theorem plus5_val :
    h.plus5.l4.toNat ≤ 2 ^ 26 ∧
      h.plus5.l0.toNat % 2 ^ 26 + 2 ^ 26 * (h.plus5.l1.toNat % 2 ^ 26) + 2 ^ 52 * (h.plus5.l2.toNat % 2 ^ 26)
        + 2 ^ 78 * (h.plus5.l3.toNat % 2 ^ 26) + 2 ^ 104 * h.plus5.l4.toNat = h.val + 5 := by
  obtain ⟨h0, h1, h2, h3, h4⟩ := hh
  have hadd : (h.l0 + 5#32).toNat = h.l0.toNat + 5 := add_toNat32 _ _ (by rw [BitVec.toNat_ofNat]; omega)
  have hcarried := carried_toNat (h := ⟨h.l0 + 5#32, h.l1, h.l2, h.l3, h.l4⟩) (by dsimp only; omega) (by dsimp only; omega)
    (by dsimp only; omega) (by dsimp only; omega)
  rw [← Limbs.plus5, hadd] at hcarried
  dsimp only at hcarried
  rw [Limbs.val]
  omega

/-- `h` is at least p exactly when `h + 5` reaches 2^130. -/
theorem modP_le_val_iff : 2 ^ 130 - 5 ≤ h.val ↔ h.plus5.l4.toNat = 2 ^ 26 := by
  obtain ⟨htop, hval⟩ := plus5_val hh
  omega

/-- The sign of g4 (42_finish.md R156). -/
theorem minusP_sign : (minusP h).l4.msb = decide (h.val < 2 ^ 130 - 5) := by
  obtain ⟨htop, -⟩ := plus5_val hh
  have hp := modP_le_val_iff hh
  rw [BitVec.msb_eq_decide, minusP_l4_toNat, decide_eq_decide]
  omega

theorem condSub_of_lt (hlt : h.val < 2 ^ 130 - 5) : condSub h = h := by
  have hmask : selectMask (minusP h).l4 = 0#32 := by rw [selectMask_of_msb, minusP_sign hh, decide_eq_true hlt, if_pos rfl]
  simp only [condSub, hmask, select_zeros]

theorem condSub_of_ge (hge : 2 ^ 130 - 5 ≤ h.val) : condSub h = minusP h := by
  have hmask : selectMask (minusP h).l4 = 0xffffffff#32 := by
    rw [selectMask_of_msb, minusP_sign hh, decide_eq_false hge.not_gt, if_neg Bool.false_ne_true]
  simp only [condSub, hmask, select_ones]

/-- From p on, the limbs of `h - p`. -/
theorem minusP_of_ge (hge : 2 ^ 130 - 5 ≤ h.val) : (minusP h).canonical ∧ (minusP h).val = h.val - (2 ^ 130 - 5) := by
  obtain ⟨-, hval⟩ := plus5_val hh
  have htop := (modP_le_val_iff hh).mp hge
  have hl4 : (minusP h).l4.toNat = 0 := by rw [minusP_l4_toNat, htop]; rfl
  have hl0 : (minusP h).l0.toNat = h.plus5.l0.toNat % 2 ^ 26 := and_limbMask_toNat _
  have hl1 : (minusP h).l1.toNat = h.plus5.l1.toNat % 2 ^ 26 := and_limbMask_toNat _
  have hl2 : (minusP h).l2.toNat = h.plus5.l2.toNat % 2 ^ 26 := and_limbMask_toNat _
  have hl3 : (minusP h).l3.toNat = h.plus5.l3.toNat % 2 ^ 26 := and_limbMask_toNat _
  refine ⟨⟨?_, ?_, ?_, ?_, ?_⟩, ?_⟩
  case refine_6 =>
    rw [← hl0, ← hl1, ← hl2, ← hl3, htop] at hval
    rw [Limbs.val.eq_1 (minusP h), hl4]
    omega
  all_goals omega

end

/-- Settles O32: below p the mask keeps `h`, which is its own residue; from p on it takes `h - p`. -/
theorem condSubIsTheResidueModuloP : Obligations.CondSubIsTheResidueModuloP := by
  intro h hh
  have hlt := val_lt_of_canonical hh
  have hsign : (minusP h).l4.getLsbD 31 = false ↔ 2 ^ 130 - 5 ≤ h.val := by
    have hmsb : (minusP h).l4.getLsbD 31 = (minusP h).l4.msb := (BitVec.msb_eq_getLsbD_last _).symm
    rw [hmsb, minusP_sign hh, decide_eq_false_iff_not, Nat.not_lt]
  by_cases hp : h.val < 2 ^ 130 - 5
  · rw [condSub_of_lt hh hp]
    exact ⟨hh, (Nat.mod_eq_of_lt hp).symm, hsign⟩
  · have hge := Nat.le_of_not_lt hp
    obtain ⟨hcan, hval⟩ := minusP_of_ge hh hge
    rw [condSub_of_ge hh hge]
    exact ⟨hcan, by rw [hval, Nat.mod_eq_sub_mod hge, Nat.mod_eq_of_lt (by omega)], hsign⟩

/-! Pack and the tag -/

/-- A packed word: the high bits of a limb and above them the low bits of the next. -/
theorem packWord_toNat (x y : Word) (a b : Nat) (hx : x.toNat < 2 ^ 26) (hab : a + b = 26) :
    ((x >>> a) ||| (y <<< b)).toNat = x.toNat / 2 ^ a + 2 ^ b * (y.toNat % 2 ^ (6 + a)) := by
  have hlow : x.toNat / 2 ^ a < 2 ^ b := Nat.div_lt_of_lt_mul (by rwa [← pow_add, hab])
  have hword : (2 : Nat) ^ 32 = 2 ^ b * 2 ^ (6 + a) := by rw [← pow_add]; congr 1; omega
  have hhigh : (y <<< b).toNat = 2 ^ b * (y.toNat % 2 ^ (6 + a)) := by
    rw [BitVec.toNat_shiftLeft, Nat.shiftLeft_eq, Nat.mul_comm, hword, Nat.mul_mod_mul_left]
  rw [BitVec.toNat_or, hhigh, BitVec.toNat_ushiftRight, Nat.shiftRight_eq_div_pow, or_eq_add_of_lt _ _ _ hlow]

/-- Settles O33: the four words take the limbs' bits in order. -/
theorem packKeepsTheLow128Bits : Obligations.PackKeepsTheLow128Bits := by
  intro h hh
  obtain ⟨h0, h1, h2, h3, h4⟩ := hh
  have w0 := packWord_toNat h.l0 h.l1 0 26 h0 rfl
  have w1 := packWord_toNat h.l1 h.l2 6 20 h1 rfl
  have w2 := packWord_toNat h.l2 h.l3 12 14 h2 rfl
  have w3 := packWord_toNat h.l3 h.l4 18 8 h3 rfl
  rw [BitVec.ushiftRight_zero] at w0
  simp only [pack, Vector.toList_mk, leWords, w0, w1, w2, w3, Limbs.val]
  omega

end Sys2Proof.Machine
end

section
/-! PROOF. The tag (42_finish.md R150, R160, R161, 40_init.md R106): the residue of the final accumulator plus the pad; and the two
cases in which the accumulator is zero and the tag is the pad. -/

namespace Sys2Proof.Machine

/-! Values of rows of bytes and of words -/

theorem leNat_zeros (n : Nat) : leNat (List.replicate n 0#8) = 0 := by
  induction n with
  | zero => rfl
  | succ n ih => rw [List.replicate_succ, leNat, ih]; rfl

theorem leNat_append_zeros (bytes : List Byte) (n : Nat) : leNat (bytes ++ List.replicate n 0#8) = leNat bytes := by
  induction bytes with
  | nil => exact leNat_zeros n
  | cons b bs ih => rw [List.cons_append, leNat, ih, leNat]

theorem leWords_words4_lt (v : Words4) : leWords v.toList < 2 ^ 128 := by
  rw [words4_toList]
  exact leWords_four_lt ..

theorem words4_eq_of_leWords_eq {v u : Words4} (h : leWords v.toList = leWords u.toList) : v = u := by
  rw [← Vector.toList_inj]
  rw [words4_toList v, words4_toList u] at h ⊢
  have hv0 := v[0].isLt
  have hv1 := v[1].isLt
  have hv2 := v[2].isLt
  have hv3 := v[3].isLt
  have hu0 := u[0].isLt
  have hu1 := u[1].isLt
  have hu2 := u[2].isLt
  have hu3 := u[3].isLt
  simp only [leWords] at h
  simp only [List.cons.injEq, ← BitVec.toNat_inj, and_true]
  omega

/-! The pipeline -/

/-- 42_finish.md R160: what the stages after the final block make of an accumulator in INV. -/
theorem addPad_pipeline_toNat {acc : Limbs} (hacc : acc.accBounded) (pad : Words4) :
    leWords (addPad (pack (condSub (carry acc))) pad).toList = (acc.val % (2 ^ 130 - 5) + leWords pad.toList) % 2 ^ 128 := by
  obtain ⟨hcarry, -, hmod⟩ := carryMakesTheAccumulatorCanonical acc hacc
  obtain ⟨hsub, hval, -⟩ := condSubIsTheResidueModuloP (carry acc) hcarry
  rw [padAdditionIsModulo2To128, packKeepsTheLow128Bits _ hsub, hval, hmod, Nat.mod_add_mod]

theorem finalBlock_val (buf : Block) (off : BitVec 4) :
    leNat (finalBlock buf off).toList = leNat (buf.toList.take off.toNat ++ [0x01#8]) := by
  rw [finalBlock_toList, leNat_append_zeros]

/-- Settles O35: the final block, if there is one, is folded in by the value law of the fold, and the fold keeps INV. -/
theorem tagIsTheMacOfTheAccumulator : Obligations.TagIsTheMacOfTheAccumulator := by
  refine fun h r pad buf off hh hr => ⟨fun hoff => ?empty, fun hoff => ?filled⟩
  case empty => rw [tagOf, finalAccumulator_of_empty h r buf hoff, addPad_pipeline_toNat hh]
  case filled =>
    have hfold := foldKeepsTheAccumulatorBound h r (finalBlock buf off) 0#32 hh hr (.inl rfl)
    rw [tagOf, finalAccumulator_of_filled h r buf hoff, addPad_pipeline_toNat hfold,
      foldMultipliesModuloP h r (finalBlock buf off) 0#32 hh hr (.inl rfl), finalBlock_val]
    rfl

/-! A zero accumulator -/

theorem addPad_zero (pad : Words4) : addPad Words4.zero pad = pad := by
  apply words4_eq_of_leWords_eq
  rw [padAdditionIsModulo2To128, show leWords Words4.zero.toList = 0 from rfl, Nat.zero_add,
    Nat.mod_eq_of_lt (leWords_words4_lt pad)]

theorem pipeline_zero (pad : Words4) : addPad (pack (condSub (carry Limbs.zero))) pad = pad := by
  have hzero : pack (condSub (carry Limbs.zero)) = Words4.zero := by decide
  rw [hzero, addPad_zero]

theorem fold_zero_multiplier (h : Limbs) (b : Block) (hibit : Word) : fold h Limbs.zero b hibit = Limbs.zero := by
  have hmul (x : Word) : mul64 x 0#32 = 0#64 := BitVec.mul_zero
  have hsums (a : Limbs) : partialSums a Limbs.zero = ⟨0#64, 0#64, 0#64, 0#64, 0#64⟩ := by
    simp [partialSums, Limbs.zero, times5, hmul]
  rw [fold, hsums]
  decide

/-- Settles O37: the accumulator stays zero whether or not a final block is folded in. -/
theorem zeroMultiplierTagIsThePad : Obligations.ZeroMultiplierTagIsThePad := by
  refine fun pad buf off => ⟨?tag, fold_zero_multiplier⟩
  have hacc : finalAccumulator Limbs.zero Limbs.zero buf off = Limbs.zero := by
    rw [finalAccumulator, fold_zero_multiplier, ite_self]
  exact (congrArg (fun acc => addPad (pack (condSub (carry acc))) pad) hacc).trans (pipeline_zero pad)

/-- INIT leaves no message, so its accumulator is the final one (42_finish.md R161). -/
theorem tagWords_loadKey (s : State) : (loadKey s).tagWords = #v[s.key[4], s.key[5], s.key[6], s.key[7]] :=
  pipeline_zero _

/-- Settles O36: INIT 32 opens the message, FINISH closes it, and its tag is `tagWords_loadKey`. -/
theorem emptyMessageTagIsThePad : Obligations.EmptyMessageTagIsThePad :=
  fun s hf => ⟨loadKey s, finishMessage (loadKey s), exec_of_effect (.loaded hf), exec_of_effect (.finished rfl), tagWords_loadKey s,
    rfl, rfl⟩

end Sys2Proof.Machine
end

section
/-! PROOF. Byte lanes (20_memory.md R56) and equal tags (43_verify.md R181, R183): words and their bytes determine each other, so
comparing words is comparing bytes. -/

namespace Sys2Proof.Machine

/-- The four bytes of a word, put together again. -/
theorem le32_lanes (w : Word) :
    le32 (w.extractLsb' 0 8) (w.extractLsb' 8 8) (w.extractLsb' 16 8) (w.extractLsb' 24 8) = w := by
  apply BitVec.eq_of_toNat_eq
  have hw := w.isLt
  simp only [le32_toNat, BitVec.extractLsb'_toNat, Nat.shiftRight_eq_div_pow]
  omega

/-- The lanes of a word put together from four bytes. -/
theorem extractLsb'_le32 (b0 b1 b2 b3 : Byte) :
    (le32 b0 b1 b2 b3).extractLsb' 0 8 = b0 ∧ (le32 b0 b1 b2 b3).extractLsb' 8 8 = b1 ∧
      (le32 b0 b1 b2 b3).extractLsb' 16 8 = b2 ∧ (le32 b0 b1 b2 b3).extractLsb' 24 8 = b3 := by
  have h0 := b0.isLt
  have h1 := b1.isLt
  have h2 := b2.isLt
  have h3 := b3.isLt
  simp only [← BitVec.toNat_inj, BitVec.extractLsb'_toNat, Nat.shiftRight_eq_div_pow, le32_toNat]
  omega

theorem bytesOf_eq_lanes (v : Words4) : bytesOf v =
    [v[0].extractLsb' 0 8, v[0].extractLsb' 8 8, v[0].extractLsb' 16 8, v[0].extractLsb' 24 8,
      v[1].extractLsb' 0 8, v[1].extractLsb' 8 8, v[1].extractLsb' 16 8, v[1].extractLsb' 24 8,
      v[2].extractLsb' 0 8, v[2].extractLsb' 8 8, v[2].extractLsb' 16 8, v[2].extractLsb' 24 8,
      v[3].extractLsb' 0 8, v[3].extractLsb' 8 8, v[3].extractLsb' 16 8, v[3].extractLsb' 24 8] := by
  simp [bytesOf, laneByte, List.range, List.range.loop]

theorem length_bytesOf (v : Words4) : (bytesOf v).length = 16 := by simp [bytesOf]

theorem packChunk_bytesOf (v : Words4) : Program.packChunk (bytesOf v) = v := by
  have hpack : Program.packChunk (bytesOf v) = #v[v[0], v[1], v[2], v[3]] := by
    rw [bytesOf_eq_lanes]
    simp [Program.packChunk, Program.wordAt, le32_lanes]
  rw [hpack, ← Vector.toList_inj, words4_toList v, Vector.toList_mk]

theorem leNat_bytesOf (v : Words4) : leNat (bytesOf v) = leWords v.toList := by
  rw [bytesOf_eq_lanes, leNat_sixteen, words4_toList]
  simp only [le32_lanes]

theorem laneByte_packChunk (bytes : List Byte) {j : Nat} (hj : j < 16) :
    laneByte (Program.packChunk bytes) j = bytes[j]?.getD 0#8 := by
  have lanes (k : Nat) := extractLsb'_le32 (bytes[k]?.getD 0#8) (bytes[k + 1]?.getD 0#8) (bytes[k + 2]?.getD 0#8) (bytes[k + 3]?.getD 0#8)
  interval_cases j <;> simp [laneByte, Program.packChunk, Program.wordAt, lanes]

theorem bytesOf_packChunk {bytes : List Byte} (hlen : bytes.length ≤ 16) :
    bytesOf (Program.packChunk bytes) = bytes ++ List.replicate (16 - bytes.length) 0#8 := by
  apply List.ext_getElem
  case hl => rw [length_bytesOf, List.length_append, List.length_replicate]; omega
  case h =>
    intro j hj _
    rw [length_bytesOf] at hj
    simp only [bytesOf, List.getElem_map, List.getElem_range, laneByte_packChunk bytes hj]
    by_cases hfilled : j < bytes.length
    · simp [hfilled]
    · simp [List.getElem_append, hfilled]

/-- Settles O53: the round trip of words, the values, and the round trip of bytes with their padding. -/
theorem byteLanesAreLittleEndian : Obligations.ByteLanesAreLittleEndian :=
  ⟨fun v => ⟨packChunk_bytesOf v, leNat_bytesOf v⟩, fun _ hc => bytesOf_packChunk hc⟩

theorem bytesOf_inj (t u : Words4) : bytesOf t = bytesOf u ↔ t = u :=
  (Function.LeftInverse.injective packChunk_bytesOf).eq_iff

/-- Settles O39: CtEqual compares words, and words are equal exactly when their bytes are. -/
theorem ctEqualIsOneExactlyOnEqualTags : Obligations.CtEqualIsOneExactlyOnEqualTags := by
  intro t u
  simp only [ctEqual_eq_ite, bytesOf_inj]

/-- Settles O40: both commands run in KEYED on the same tag; FINISH writes it and VERIFY compares it with CAND and clears TAG. -/
theorem verifyAcceptsExactlyTheTagOfFinish : Obligations.VerifyAcceptsExactlyTheTagOfFinish := by
  refine fun s hkeyed => ⟨finishMessage s, verifyMessage s, exec_of_effect (.finished hkeyed), exec_of_effect (.verified hkeyed),
    ?matched, rfl, fun i => ?hidden, fun _ => rfl⟩
  case matched => rw [verifyMessage_matched, ctEqual_getLsbD_zero, finishMessage_tag, decide_eq_true_iff, eq_comm]
  case hidden => exact Vector.getElem_replicate i.isLt

end Sys2Proof.Machine
end

section
/-! PROOF. The bus and its steps (20_memory.md R50-R55, R66, 70_reset_and_hazards.md R240): the step that runs a command word, that no
access of the host in the window stops the machine, the three accesses that do nothing or stop it, and the register map both ways. -/

namespace Sys2Proof.Machine

/-! Running a command word -/

/-- Settles O7: the write to CMD is a write of the register at offset 0, and the word it issues decodes. -/
theorem stepRunsTheDecodedCommand : Obligations.StepRunsTheDecodedCommand := by
  intro s a rest w i h hsize hkind hd
  have hcmd : regAt 0 = .cmd := rfl
  rw [step_of_write h hsize rfl hkind, hcmd, writeReg_cmd, issueCommand_of_decoded hd]

/-- `withFetchWord` makes a write to CMD the host's next access (log entry 3). -/
theorem withFetchWord_about (s : State) (nbits w : Nat) :
    (s.withFetchWord nbits w).about (commandWrite s (BitVec.ofNat 32 (w % 2 ^ nbits))) 0 s.pending := by
  refine ⟨rfl, rfl, by decide, ?_⟩
  cases hm : s.master with
  | none => exact .inl hm
  | some m => exact .inr (by simp [commandWrite, State.withFetchWord, hm])

theorem decode_of_decodeTableWord {nbits w : Nat} {i : Instr} (h : decodeTableWord nbits w = some i) :
    decode (BitVec.ofNat 32 (w % 2 ^ nbits)) = .ok i := by
  unfold decodeTableWord at h
  cases hd : decode (BitVec.ofNat 32 (w % 2 ^ nbits)) with
  | ok j => simpa [hd] using h
  | error e => simp [hd] at h

/-- Settles O8: it is the step of O7 at that access, whose bookkeeping leaves what was pending before. -/
theorem withFetchWordRunsThatCommandNext : Obligations.WithFetchWordRunsThatCommandNext :=
  fun s w _ _ h => stepRunsTheDecodedCommand _ _ _ _ _ (withFetchWord_about s 32 w) rfl rfl (decode_of_decodeTableWord h)

/-! Every access of the host completes -/

theorem issueCommand_completes (w : Word) (s : State) : ∃ t, issueCommand w s = .next t := by
  cases hd : decode w with
  | ok i =>
    obtain ⟨t, hexec, -⟩ := exec_effect i s
    exact ⟨t, (issueCommand_of_decoded hd s).trans hexec⟩
  | error e => exact ⟨_, issueCommand_of_rejected ⟨e, hd⟩ s⟩

theorem writeReg_completes (q : Reg) (v : Word) (s : State) : ∃ t, writeReg q v s = .next t := by
  cases q with
  | cmd => exact issueCommand_completes v s
  | status | errInfo | key | din | cand | tag | reserved => exact ⟨_, rfl⟩

/-- 20_memory.md R53: a malformed access has its bus error for an answer and no other effect. -/
theorem step_of_malformed {s : State} {a : BusAccess} {o : Nat} {rest : List HostEvent} (h : s.about a o rest)
    (hbad : a.size ≠ 4 ∨ o % 4 ≠ 0) : step s = .next (s.served a.master rest (busError a.kind)) := by
  have himproper : properAccess o a.size = false := by
    rw [← Bool.not_eq_true, properAccess, Bool.and_eq_true, beq_iff_eq, beq_iff_eq]
    omega
  simp only [step_about h, windowAccess, himproper, Bool.false_eq_true, if_false]
  rfl

/-- Settles O9: a malformed access is answered, a read is answered, and every write completes. -/
theorem everyAccessOfTheHostCompletes : Obligations.EveryAccessOfTheHostCompletes := by
  intro s a o rest h
  by_cases hproper : a.size = 4 ∧ o % 4 = 0
  · obtain ⟨hsize, halign⟩ := hproper
    cases hk : a.kind with
    | read => exact ⟨_, step_of_read h hsize halign hk⟩
    | write v =>
      rw [step_of_write h hsize halign hk]
      exact writeReg_completes ..
  · exact ⟨_, step_of_malformed h (not_and_or.mp hproper)⟩

/-- Settles O51: the answer of `step_of_malformed`, which depends on the access being a read or a write. -/
theorem malformedAccessIsABusErrorWithoutEffect : Obligations.MalformedAccessIsABusErrorWithoutEffect := by
  intro s a o rest h hbad
  rw [step_of_malformed h hbad]
  exact ⟨fun hk => by rw [hk]; rfl, fun v hk => by rw [hk]; rfl⟩

/-! What stops the machine -/

theorem step_of_access {s : State} {a : BusAccess} {rest : List HostEvent} (h : s.pending = .access a :: rest) :
    step s = busAccess a { s with pending := rest } := by
  simp only [step, stepPending, h, performEvent]

theorem windowOffset_of_inside {base addr : Nat} (h : base ≤ addr ∧ addr < base + 256) :
    windowOffset base addr = some (addr - base) := if_pos h

theorem windowOffset_of_outside {base addr : Nat} (h : addr < base ∨ base + 256 ≤ addr) : windowOffset base addr = none :=
  if_neg (by rw [Config.windowSize]; omega)

/-- Settles O56: the window is checked before the master. -/
theorem secondMastersAndOutsideAddressesStop : Obligations.SecondMastersAndOutsideAddressesStop := by
  intro s a rest h
  rw [step_of_access h]
  refine ⟨fun hin hother => ?second, fun hout => ?outside⟩
  case second =>
    obtain ⟨m, hm, hne⟩ := hother
    simp [busAccess, windowOffset_of_inside hin, admits, hm, hne.symm]
  case outside => simp only [busAccess, windowOffset_of_outside hout]

/-! The register map -/

/-- The aligned offsets of the window, row by row of the table of 20_memory.md R50. -/
theorem aligned_offset_cases {o : Nat} (halign : o % 4 = 0) :
    o = 0x00 ∨ o = 0x04 ∨ o = 0x08 ∨ (o = 0x0C ∨ 0x60 ≤ o) ∨ (∃ j : Fin 8, o = 0x10 + 4 * j) ∨
      (∃ j : Fin 4, o = 0x30 + 4 * j) ∨ (∃ j : Fin 4, o = 0x40 + 4 * j) ∨ ∃ j : Fin 4, o = 0x50 + 4 * j := by
  have row (n start : Nat) (hlo : start ≤ o) (hhi : o < start + 4 * n) (hstart : start % 4 = 0) : ∃ j : Fin n, o = start + 4 * j :=
    ⟨⟨(o - start) / 4, by omega⟩, by dsimp only; omega⟩
  by_cases hkey : 0x10 ≤ o ∧ o < 0x30
  · exact .inr (.inr (.inr (.inr (.inl (row 8 0x10 hkey.1 hkey.2 rfl)))))
  by_cases hdin : 0x30 ≤ o ∧ o < 0x40
  · exact .inr (.inr (.inr (.inr (.inr (.inl (row 4 0x30 hdin.1 hdin.2 rfl))))))
  by_cases hcand : 0x40 ≤ o ∧ o < 0x50
  · exact .inr (.inr (.inr (.inr (.inr (.inr (.inl (row 4 0x40 hcand.1 hcand.2 rfl)))))))
  by_cases htag : 0x50 ≤ o ∧ o < 0x60
  · exact .inr (.inr (.inr (.inr (.inr (.inr (.inr (row 4 0x50 htag.1 htag.2 rfl)))))))
  omega

theorem regAt_key (j : Fin 8) : regAt (0x10 + 4 * j) = .key j := by decide +revert
theorem regAt_din (j : Fin 4) : regAt (0x30 + 4 * j) = .din j := by decide +revert
theorem regAt_cand (j : Fin 4) : regAt (0x40 + 4 * j) = .cand j := by decide +revert
theorem regAt_tag (j : Fin 4) : regAt (0x50 + 4 * j) = .tag j := by decide +revert

/-- A row of the register map: an offset outside the reserved ones, and the register there. -/
theorem regAt_row {o : Nat} {q : Reg} (hreg : regAt o = q) (hq : q ≠ .reserved) (ho : ¬(o = 0x0C ∨ 0x60 ≤ o))
    (hoff : Program.offset q = o) :
    (regAt o = .reserved ↔ o = 0x0C ∨ 0x60 ≤ o) ∧ (regAt o ≠ .reserved → Program.offset (regAt o) = o) := by
  subst hreg
  exact ⟨iff_of_false hq ho, fun _ => hoff⟩

/-- Settles O49: each row of the table in both directions. -/
theorem offsetsAreTheRegisterMap : Obligations.OffsetsAreTheRegisterMap := by
  refine ⟨rfl, rfl, rfl, regAt_key, regAt_din, regAt_cand, regAt_tag, fun o _ halign => ?_⟩
  obtain rfl | rfl | rfl | hres | ⟨j, rfl⟩ | ⟨j, rfl⟩ | ⟨j, rfl⟩ | ⟨j, rfl⟩ := aligned_offset_cases halign
  · exact regAt_row (q := .cmd) rfl (by decide) (by decide) rfl
  · exact regAt_row (q := .status) rfl (by decide) (by decide) rfl
  · exact regAt_row (q := .errInfo) rfl (by decide) (by decide) rfl
  · have hreg := regAt_eq_reserved hres
    exact ⟨iff_of_true hreg hres, fun hne => absurd hreg hne⟩
  · exact regAt_row (regAt_key j) Reg.noConfusion (by omega) rfl
  · exact regAt_row (regAt_din j) Reg.noConfusion (by omega) rfl
  · exact regAt_row (regAt_cand j) Reg.noConfusion (by omega) rfl
  · exact regAt_row (regAt_tag j) Reg.noConfusion (by omega) rfl

end Sys2Proof.Machine
end

section
/-! PROOF. STATUS and ERRINFO (10_state.md R31, R32): each word as the weighted sum of its fields, from which the fields are read off. -/

namespace Sys2Proof.Machine

theorem statusWord_toNat (s : State) : (statusWord s).toNat =
    s.lifecycle.code.toNat + 2 ^ 2 * s.keyErr.toNat + 2 ^ 3 * s.tagV.toNat + 2 ^ 4 * s.vDone.toNat + 2 ^ 5 * s.matched.toNat
      + 2 ^ 8 * s.off.toNat := by
  simp only [statusWord, append_toNat, BitVec.toNat_ofBool, BitVec.toNat_ofNat]
  omega

theorem errInfoWord_toNat (s : State) : (errInfoWord s).toNat =
    s.eCode.code.toNat + 2 ^ 8 * s.eLen.toNat + 2 ^ 16 * s.eOp.toNat := by
  simp only [errInfoWord, append_toNat, BitVec.toNat_ofNat]
  omega

/-- A bit of a word, as arithmetic. -/
theorem getLsbD_eq_iff (w : Word) (k : Nat) (b : Bool) : w.getLsbD k = b ↔ w.toNat / 2 ^ k % 2 = b.toNat := by
  rw [BitVec.getLsbD, Nat.testBit_eq_decide_div_mod_eq]
  cases b <;> simp

/-- Settles O47: STATUS is `statusWord_toNat`, and its fields do not overlap. -/
theorem statusHasTheFieldsOfR31 : Obligations.StatusHasTheFieldsOfR31 := by
  intro s
  have hword : (readReg .status s).toNat = _ := statusWord_toNat s
  have hstate : s.lifecycle.code.toNat < 2 ^ 2 := s.lifecycle.code.isLt
  have hkeyErr := s.keyErr.toNat_lt
  have htagV := s.tagV.toNat_lt
  have hvDone := s.vDone.toNat_lt
  have hmatched := s.matched.toNat_lt
  have hoff : s.off.toNat < 2 ^ 4 := s.off.isLt
  refine ⟨?state, ?_⟩
  case state => rw [readReg_status_state]; cases s.lifecycle <;> rfl
  simp only [getLsbD_eq_iff, ← BitVec.toNat_inj, BitVec.extractLsb'_toNat, Nat.shiftRight_eq_div_pow, hword, BitVec.toNat_ofNat,
    writeReg_status, implies_true, and_true]
  omega

/-- Settles O48: ERRINFO is `errInfoWord_toNat`, and its fields do not overlap. -/
theorem errInfoHasTheFieldsOfR32 : Obligations.ErrInfoHasTheFieldsOfR32 := by
  intro s
  have hword : (readReg .errInfo s).toNat = _ := errInfoWord_toNat s
  have hcode : s.eCode.code.toNat < 2 ^ 4 := s.eCode.code.isLt
  have hlen : s.eLen.toNat < 2 ^ 8 := s.eLen.isLt
  have hop : s.eOp.toNat < 2 ^ 8 := s.eOp.isLt
  refine ⟨?code, ?_⟩
  case code =>
    have hfield : (readReg .errInfo s).extractLsb' 0 4 = s.eCode.code := BitVec.extractLsb'_append_eq_right
    rw [hfield]
    cases s.eCode <;> rfl
  simp only [← BitVec.toNat_inj, BitVec.extractLsb'_toNat, Nat.shiftRight_eq_div_pow, hword, BitVec.toNat_ofNat,
    writeReg_errInfo, implies_true, and_true]
  omega

end Sys2Proof.Machine
end

section
/-! PROOF. Several engines (60_exceptions.md R212): what one engine's step is on the platform, and that it reads and writes that engine
alone. -/

namespace Sys2Proof.Machine

/-- Everything a step of engine `k` that gives a next platform can be: nothing, where there is no such engine, or a step of it. -/
theorem stepEngine_cases {k : Nat} {p q : Platform} (h : p.stepEngine k = .next q) :
    p.engines[k]? = none ∧ q = p ∨
      ∃ s t, p.engines[k]? = some s ∧ step s = .next t ∧ q = ⟨p.engines.set k t⟩ := by
  unfold Platform.stepEngine at h
  cases hk : p.engines[k]? with
  | none =>
    rw [hk] at h
    injection h with hq
    exact .inl ⟨rfl, hq.symm⟩
  | some s =>
    rw [hk] at h
    cases hstep : step s with
    | next t =>
      simp only [hstep] at h
      injection h with hq
      exact .inr ⟨s, t, rfl, hstep, hq.symm⟩
    | fault f => simp [hstep] at h
    | refused r => simp [hstep] at h

theorem stepEngine_of_none {k : Nat} {p : Platform} (h : p.engines[k]? = none) : p.stepEngine k = .next p := by
  simp only [Platform.stepEngine, h]

theorem stepEngine_of_some {k : Nat} {p : Platform} {s t : State} (h : p.engines[k]? = some s) (hstep : step s = .next t) :
    p.stepEngine k = .next ⟨p.engines.set k t⟩ := by
  simp only [Platform.stepEngine, h, hstep]

/-- The frame of a platform's step. -/
theorem stepEngine_frame {k : Nat} {p q : Platform} (h : p.stepEngine k = .next q) :
    q.engines.length = p.engines.length ∧ ∀ j, j ≠ k → q.engines[j]? = p.engines[j]? := by
  obtain ⟨-, rfl⟩ | ⟨s, t, -, -, rfl⟩ := stepEngine_cases h
  · exact ⟨rfl, fun _ _ => rfl⟩
  · exact ⟨List.length_set .., fun j hj => List.getElem?_set_ne hj.symm⟩

theorem deliver_outside {p : Platform} {a : BusAccess} {j : Nat} {s : State} (hj : p.engines[j]? = some s)
    (hout : s.owns a.addr = false) : (p.deliver a).engines[j]? = some s := by
  simp [Platform.deliver, hj, hout]

theorem stepEngine_comm {j k : Nat} {p q u : Platform} (hjk : j ≠ k) (hj : p.stepEngine j = .next q) (hk : q.stepEngine k = .next u) :
    ∃ q', p.stepEngine k = .next q' ∧ q'.stepEngine j = .next u := by
  have hsame : q.engines[k]? = p.engines[k]? := (stepEngine_frame hj).2 k hjk.symm
  obtain ⟨hnone, rfl⟩ | ⟨s, t, hs, hstep, rfl⟩ := stepEngine_cases hk
  · exact ⟨p, stepEngine_of_none (hsame ▸ hnone), hj⟩
  have hk' : p.stepEngine k = .next ⟨p.engines.set k t⟩ := stepEngine_of_some (hsame ▸ hs) hstep
  refine ⟨⟨p.engines.set k t⟩, hk', ?_⟩
  have hsame' : (p.engines.set k t)[j]? = p.engines[j]? := (stepEngine_frame hk').2 j hjk
  obtain ⟨hnone, rfl⟩ | ⟨s', t', hs', hstep', rfl⟩ := stepEngine_cases hj
  · exact stepEngine_of_none (hsame'.trans hnone)
  · rw [stepEngine_of_some (hsame'.trans hs') hstep', List.set_comm t t' hjk.symm]

theorem owns_iff (s : State) (addr : Nat) : s.owns addr = true ↔ s.base ≤ addr ∧ addr < s.base + 256 := by
  unfold State.owns windowOffset Config.windowSize
  split <;> simp_all

/-- Settles O57: the frame, the delivery by window, the commutation of steps, and windows that are different blocks of 256. -/
theorem enginesShareNothing : Obligations.EnginesShareNothing := by
  refine ⟨fun _ _ _ => stepEngine_frame, fun _ _ _ _ => deliver_outside, fun _ _ _ _ _ => stepEngine_comm, ?_⟩
  intro s t addr hs ht hne hown
  rw [owns_iff] at hown
  rw [← Bool.not_eq_true, owns_iff]
  omega

end Sys2Proof.Machine
end

section
/-! PROOF. What commands change and leave (10_state.md R24, R25, R31-R36, 60_exceptions.md R200-R202), read off their effects case by
case. -/

namespace Sys2Proof.Machine

/-- Settles O21: each is an effect of the check order. -/
theorem messageCommandsNeedAnOpenMessage : Obligations.MessageCommandsNeedAnOpenMessage :=
  ⟨fun _ _ hn _ hf => exec_of_effect (.badLen hn hf), fun _ _ hi hidle => exec_of_effect (.notKeyed hi hidle),
    fun _ _ hi hfinished => exec_of_effect (.consumed hi hfinished)⟩

/-! Frames -/

/-- What each window register but STATUS shows. -/
theorem readReg_congr {s t : State} {q : Reg} (hstatus : q ≠ .status) (herr : q ≠ .errInfo ∨ errInfoWord t = errInfoWord s)
    (hdin : t.din = s.din) (hcand : t.cand = s.cand) (htag : (∀ j, q ≠ .tag j) ∨ t.tag = s.tag) :
    readReg q t = readReg q s := by
  cases q with
  | cmd | key | reserved => rfl
  | status => exact absurd rfl hstatus
  | errInfo => exact herr.resolve_left (absurd rfl)
  | din j => simp only [readReg, hdin]
  | cand j => simp only [readReg, hcand]
  | tag j => simp only [readReg, htag.resolve_left fun h => absurd rfl (h j)]

/-- 41_update.md R121: absorbing bytes writes BUF, OFF and H alone. -/
theorem absorb_eq_update (s : State) (bytes : List Byte) : ∃ buf off h, absorb s bytes = { s with buf := buf, off := off, h := h } := by
  refine absorb_keeps (fun t => ∃ buf off h, t = { s with buf := buf, off := off, h := h }) ?_ s bytes ⟨_, _, _, rfl⟩
  rintro _ b ⟨buf, off, h, rfl⟩
  unfold absorbByte
  split <;> exact ⟨_, _, _, rfl⟩

/-- Settles O24: UPDATE absorbs the chunk, and no register but STATUS shows BUF, OFF or H. -/
theorem updateChangesOnlyTheBufferAndTheAccumulator : Obligations.UpdateChangesOnlyTheBufferAndTheAccumulator := by
  intro n s t hn hkeyed hexec
  rw [exec_of_effect (.absorbed hn hkeyed)] at hexec
  injection hexec with ht
  obtain ⟨buf, off, h, hupdate⟩ := absorb_eq_update s (chunk n s.din)
  rw [hupdate] at ht
  subst ht
  exact ⟨rfl, fun q hq => readReg_congr hq (.inr rfl) rfl rfl (.inr rfl)⟩

/-- Settles O41: FINISH and VERIFY in KEYED have one effect each, which leaves these registers as they were. -/
theorem finishAndVerifyFrame : Obligations.FinishAndVerifyFrame := by
  intro i s t hi hkeyed hexec
  have ht : t = finishMessage s ∨ t = verifyMessage s := by
    rcases hi with rfl | rfl
    · rw [exec_of_effect (.finished hkeyed)] at hexec
      injection hexec with ht
      exact .inl ht.symm
    · rw [exec_of_effect (.verified hkeyed)] at hexec
      injection hexec with ht
      exact .inr ht.symm
  obtain rfl | rfl := ht <;>
    exact ⟨rfl, rfl, rfl, rfl, rfl, rfl, rfl, ⟨rfl, rfl, rfl, rfl⟩,
      fun q hstatus htag => readReg_congr hstatus (.inr rfl) rfl rfl (.inl htag)⟩

/-- The registers no command writes. -/
theorem Effect.data_frame {i : Instr} {s t : State} (he : Effect i s t) : t.din = s.din ∧ t.cand = s.cand ∧ t.samePort s := by
  cases he with
  | absorbed =>
    exact ⟨absorb_din .., absorb_cand .., absorb_base .., absorb_pending .., absorb_response .., absorb_master ..⟩
  | ignored | nothing | loaded | keySize | badLen | notKeyed | consumed | finished | verified | forbidden =>
    exact ⟨rfl, rfl, rfl, rfl, rfl, rfl⟩

/-- Settles O46: the frame of every effect, and no register but the three named shows anything outside it. -/
theorem noCommandChangesDataRegisters : Obligations.NoCommandChangesDataRegisters := by
  intro i s t hexec
  obtain ⟨hdin, hcand, hport⟩ := (effect_of_exec hexec).data_frame
  exact ⟨hdin, hcand, hport, fun q hstatus herr htag => readReg_congr hstatus (.inl herr) hdin hcand (.inl htag)⟩

/-- Settles O45: INIT 32 takes both from KEY, the message's end and FATAL zero both, and nothing else writes either. -/
theorem onlyInitGivesTheMultiplierAndPadAValue : Obligations.OnlyInitGivesTheMultiplierAndPadAValue := by
  intro i s t hexec
  cases effect_of_exec hexec with
  | loaded => exact .inr (.inr ⟨rfl, rfl, rfl⟩)
  | absorbed => exact .inl ⟨absorb_r .., absorb_pad ..⟩
  | ignored | nothing | keySize => exact .inl ⟨rfl, rfl⟩
  | badLen | notKeyed | consumed | forbidden | finished | verified => exact .inr (.inl ⟨rfl, rfl⟩)

/-- Settles O44: INIT 32 and FATAL entry clear every flag, the refusal of INIT sets KEYERR, FINISH and VERIFY write the other three,
and nothing else writes a flag. -/
theorem flagsHaveOnlyTheirListedWriters : Obligations.FlagsHaveOnlyTheirListedWriters := by
  intro i s t hexec
  cases effect_of_exec hexec with
  | ignored | nothing => exact ⟨.inl rfl, .inl rfl, .inl rfl, .inl rfl⟩
  | absorbed => exact ⟨.inl (absorb_keyErr ..), .inl (absorb_tagV ..), .inl (absorb_vDone ..), .inl (absorb_matched ..)⟩
  | loaded =>
    exact ⟨.inr (.inr ⟨rfl, .inl rfl⟩), .inr (.inr ⟨rfl, .inl rfl⟩), .inr (.inr ⟨rfl, .inl rfl⟩),
      .inr (.inr ⟨rfl, .inl rfl⟩)⟩
  | keySize => exact ⟨.inr (.inl ⟨rfl, rfl⟩), .inl rfl, .inl rfl, .inl rfl⟩
  | finished =>
    exact ⟨.inl rfl, .inr (.inl ⟨rfl, rfl⟩), .inr (.inr ⟨rfl, .inr (.inl rfl)⟩), .inr (.inr ⟨rfl, .inr (.inl rfl)⟩)⟩
  | verified => exact ⟨.inl rfl, .inr (.inr ⟨rfl, .inr (.inl rfl)⟩), .inr (.inl ⟨rfl, rfl⟩), .inr (.inl rfl)⟩
  | badLen | notKeyed | consumed | forbidden =>
    exact ⟨.inr (.inr ⟨rfl, .inr rfl⟩), .inr (.inr ⟨rfl, .inr (.inr rfl)⟩), .inr (.inr ⟨rfl, .inr (.inr rfl)⟩),
      .inr (.inr ⟨rfl, .inr (.inr rfl)⟩)⟩

/-! What the host can see -/

/-- OFF counts modulo 16 (41_update.md R121). -/
theorem absorbByte_off (s : State) (b : Byte) : (absorbByte s b).off = s.off + 1#4 := by
  unfold absorbByte
  split
  next hfull => exact (congrArg (· + 1#4) hfull).symm
  next => rfl

theorem absorb_off (s : State) (bytes : List Byte) : (absorb s bytes).off = s.off + BitVec.ofNat 4 bytes.length := by
  induction bytes generalizing s with
  | nil => exact (BitVec.add_zero _).symm
  | cons b bs ih =>
    rw [absorb_cons, ih, absorbByte_off, List.length_cons, Nat.add_comm, BitVec.ofNat_add, BitVec.add_assoc]

/-- A command that is neither FINISH nor VERIFY takes the same case in two states the host cannot tell apart, and what it shows does
not depend on what they hide. -/
theorem Effect.sameToHost {i : Instr} {s s' t : State} (hst : s.sameToHost t) (he : Effect i s s') (hfinish : i ≠ .finish)
    (hverify : i ≠ .verify) : ∃ t', Effect i t t' ∧ s'.sameToHost t' := by
  have hst' := hst
  obtain ⟨hlife, hoff, hkeyErr, htagV, hvDone, hmatched, hcode, hlen, hop, hdin, hcand, htag⟩ := hst
  have hfatal (code : ErrorCode) (op : Byte) (len : Nat) : (enterFatal code op len s).sameToHost (enterFatal code op len t) :=
    ⟨rfl, rfl, rfl, rfl, rfl, rfl, rfl, rfl, rfl, hdin, hcand, rfl⟩
  cases he with
  | ignored hf => exact ⟨t, .ignored (hlife ▸ hf), hst'⟩
  | nothing => exact ⟨t, .nothing, hst'⟩
  | loaded hf => exact ⟨loadKey t, .loaded (hlife ▸ hf), rfl, rfl, rfl, rfl, rfl, rfl, rfl, rfl, rfl, hdin, hcand, rfl⟩
  | keySize hn hf =>
    exact ⟨refuseKeySize _ t, .keySize hn (hlife ▸ hf), hlife, hoff, rfl, htagV, hvDone, hmatched, rfl, rfl, rfl, hdin, hcand, htag⟩
  | badLen hn hf => exact ⟨_, .badLen hn (hlife ▸ hf), hfatal ..⟩
  | notKeyed hi hl => exact ⟨_, .notKeyed hi (hlife ▸ hl), hfatal ..⟩
  | consumed hi hl => exact ⟨_, .consumed hi (hlife ▸ hl), hfatal ..⟩
  | forbidden hf => exact ⟨_, .forbidden (hlife ▸ hf), hfatal ..⟩
  | absorbed hn hl =>
    refine ⟨_, .absorbed hn (hlife ▸ hl), ?_⟩
    simp only [State.sameToHost, absorb_lifecycle, absorb_off, absorb_keyErr, absorb_tagV, absorb_vDone, absorb_matched,
      absorb_eCode, absorb_eLen, absorb_eOp, absorb_din, absorb_cand, absorb_tag]
    exact ⟨hlife, by rw [hoff, hdin], hkeyErr, htagV, hvDone, hmatched, hcode, hlen, hop, hdin, hcand, htag⟩
  | finished => exact absurd rfl hfinish
  | verified => exact absurd rfl hverify

theorem readReg_sameToHost {s t : State} (hst : s.sameToHost t) (q : Reg) : readReg q s = readReg q t := by
  obtain ⟨hlife, hoff, hkeyErr, htagV, hvDone, hmatched, hcode, hlen, hop, hdin, hcand, htag⟩ := hst
  by_cases hq : q = .status
  · simp only [hq, readReg, statusWord, hlife, hoff, hkeyErr, htagV, hvDone, hmatched]
  · exact readReg_congr hq (.inr (by simp only [errInfoWord, hcode, hlen, hop])) hdin hcand (.inr htag)

/-- Settles O54: reads show what `sameToHost` lists, and both states take the same effect. -/
theorem keyMaterialShowsOnlyThroughFinishAndVerify : Obligations.KeyMaterialShowsOnlyThroughFinishAndVerify := by
  refine fun s t hst => ⟨readReg_sameToHost hst, fun i hfinish hverify => ?_⟩
  obtain ⟨s', hexec, he⟩ := exec_effect i s
  obtain ⟨t', he', hst'⟩ := he.sameToHost hst hfinish hverify
  exact ⟨s', t', hexec, exec_of_effect he', hst'⟩

end Sys2Proof.Machine
end

section
/-! PROOF. The byte loop (41_update.md R121-R123): what it makes of bytes that do not fill the buffer and of bytes that just fill it;
from these the closed form of UPDATE, the agreement with the document's three steps and the freedom of chunking. -/

namespace Sys2Proof.Machine

/-! Copying into a block -/

/-- Two buffers whose bytes below a position are the same. -/
def Block.agreeBelow (n : Nat) (buf buf' : Block) : Prop := ∀ j : Fin 16, j.val < n → buf[j] = buf'[j]

theorem Block.eq_of_agreeBelow_sixteen {buf buf' : Block} (h : Block.agreeBelow 16 buf buf') : buf = buf' :=
  Vector.ext fun j hj => h ⟨j, hj⟩ hj

theorem getElem_copyInto (buf : Block) (start : Nat) (bytes : List Byte) {j : Nat} (hj : j < 16) :
    (copyInto buf start bytes)[j] = if start ≤ j ∧ j < start + bytes.length then bytes[j - start]?.getD 0#8 else buf[j] :=
  Vector.getElem_ofFn hj

theorem copyInto_nil (buf : Block) (start : Nat) : copyInto buf start [] = buf := by
  apply Vector.ext
  intro j hj
  rw [getElem_copyInto, if_neg (by rw [List.length_nil]; omega)]

theorem copyInto_cons (buf : Block) {start : Nat} (hstart : start < 16) (b : Byte) (bs : List Byte) :
    copyInto buf start (b :: bs) = copyInto (buf.set start b hstart) (start + 1) bs := by
  apply Vector.ext
  intro j hj
  rw [getElem_copyInto, getElem_copyInto, Vector.getElem_set, List.length_cons]
  obtain hlt | rfl | hgt := Nat.lt_trichotomy j start
  · rw [if_neg (by omega), if_neg (by omega), if_neg (by omega)]
  · rw [if_pos (by omega), if_neg (by omega), if_pos rfl, Nat.sub_self]
    rfl
  · have hindex : j - start = (j - (start + 1)) + 1 := by omega
    rw [if_neg (by omega : ¬ start = j), hindex, List.getElem?_cons_succ]
    congr 1
    exact propext (by omega)

/-- The bytes copied to the front do not depend on what was there. -/
theorem copyInto_agreeBelow (buf buf' : Block) (bytes : List Byte) :
    Block.agreeBelow bytes.length (copyInto buf 0 bytes) (copyInto buf' 0 bytes) := by
  intro j hj
  have hin : 0 ≤ j.val ∧ j.val < 0 + bytes.length := by omega
  exact (getElem_copyInto buf 0 bytes j.isLt).trans ((if_pos hin).trans
    ((getElem_copyInto buf' 0 bytes j.isLt).trans (if_pos hin)).symm)

theorem copyInto_full (buf buf' : Block) {bytes : List Byte} (h : bytes.length = 16) :
    copyInto buf 0 bytes = copyInto buf' 0 bytes :=
  Block.eq_of_agreeBelow_sixteen (h ▸ copyInto_agreeBelow buf buf' bytes)

/-! Absorbing a run of bytes -/

theorem off_succ_toNat {off : BitVec 4} (h : off.toNat + 1 ≠ 16) : (off + 1#4).toNat = off.toNat + 1 := by
  have hlt := off.isLt
  rw [BitVec.toNat_add, BitVec.toNat_ofNat]
  omega

theorem off_add_succ (off : BitVec 4) (n : Nat) : off + 1#4 + BitVec.ofNat 4 n = off + BitVec.ofNat 4 (n + 1) := by
  rw [Nat.add_comm n 1, BitVec.ofNat_add, BitVec.add_assoc]

/-- Bytes that do not fill the buffer are copied in behind the bytes held. -/
theorem absorb_of_room {s : State} {bytes : List Byte} (h : s.off.toNat + bytes.length < 16) :
    absorb s bytes = { s with buf := copyInto s.buf s.off.toNat bytes, off := s.off + BitVec.ofNat 4 bytes.length } := by
  induction bytes generalizing s with
  | nil => rw [absorb_nil, copyInto_nil, List.length_nil, BitVec.add_zero]
  | cons b bs ih =>
    rw [List.length_cons] at h
    have hroom : s.off.toNat + 1 ≠ 16 := by omega
    have hoff := off_succ_toNat hroom
    rw [absorb_cons, absorbByte_of_room hroom, ih (by dsimp only; omega)]
    simp only [hoff, off_add_succ, List.length_cons, copyInto_cons s.buf s.off.isLt]

/-- Bytes that just fill the buffer complete one block, which is folded. -/
theorem absorb_of_fills {s : State} {bytes : List Byte} (h : s.off.toNat + bytes.length = 16) :
    absorb s bytes = { s with
      buf := copyInto s.buf s.off.toNat bytes
      off := 0#4
      h := fold s.h s.r (copyInto s.buf s.off.toNat bytes) Config.fullBlockFlag } := by
  induction bytes generalizing s with
  | nil => exact absurd h s.off.isLt.ne
  | cons b bs ih =>
    rw [List.length_cons] at h
    rw [absorb_cons, copyInto_cons s.buf s.off.isLt]
    by_cases hfills : s.off.toNat + 1 = 16
    · have hbs : bs = [] := List.eq_nil_of_length_eq_zero (by omega)
      rw [hbs, copyInto_nil, absorb_nil, absorbByte_of_fills hfills]
    · have hoff := off_succ_toNat hfills
      rw [absorbByte_of_room hfills, ih (by dsimp only; omega)]
      simp only [hoff]

theorem length_chunk {n : Nat} (hn : n ≤ 16) (din : Words4) : (chunk n din).length = n := by
  rw [chunk_eq_map_laneByte hn, List.length_map, List.length_range]

/-- Settles O20: a chunk with room is `absorb_of_room`; a longer one is cut where the buffer is full, and its rest has room in the
empty buffer. -/
theorem updateInClosedForm : Obligations.UpdateInClosedForm := by
  intro n s hn hkeyed
  have hlen := length_chunk hn s.din
  rw [exec_of_effect (.absorbed hn hkeyed)]
  refine ⟨fun hroom => ?_, fun hfills => ?_⟩
  · rw [absorb_of_room (by rw [hlen]; exact hroom), hlen]
  · have hoff := s.off.isLt
    have htake : s.off.toNat + ((chunk n s.din).take (16 - s.off.toNat)).length = 16 := by
      rw [List.length_take, hlen]
      omega
    have hdrop : ((chunk n s.din).drop (16 - s.off.toNat)).length = n - (16 - s.off.toNat) := by rw [List.length_drop, hlen]
    have hnew : 0#4 + BitVec.ofNat 4 (n - (16 - s.off.toNat)) = s.off + BitVec.ofNat 4 n := by
      rw [← BitVec.toNat_inj]
      simp only [BitVec.toNat_add, BitVec.toNat_ofNat]
      omega
    have hcut := List.take_append_drop (16 - s.off.toNat) (chunk n s.din)
    have hroom : (0#4).toNat + ((chunk n s.din).drop (16 - s.off.toNat)).length < 16 := by
      rw [hdrop, BitVec.toNat_ofNat]
      omega
    conv => lhs; rw [← hcut, absorb_append, absorb_of_fills htake, absorb_of_room hroom, hdrop]
    rw [← hnew]
    rfl

/-! The document's three steps -/

/-- Fewer bytes than a block, from an empty buffer. -/
theorem absorb_of_lt_block {s : State} {bytes : List Byte} (hoff : s.off = 0#4) (hlt : bytes.length < 16) :
    absorb s bytes = { s with buf := copyInto s.buf 0 bytes, off := BitVec.ofNat 4 bytes.length } := by
  have hoff0 : s.off.toNat = 0 := by rw [hoff]; rfl
  rw [absorb_of_room (by omega), hoff0, hoff, BitVec.zero_add]

/-- A whole block, from an empty buffer. -/
theorem absorb_block {s : State} {bytes : List Byte} (hoff : s.off = 0#4) (hlen : bytes.length = 16) :
    absorb s bytes = { s with
      buf := copyInto Block.zero 0 bytes
      off := 0#4
      h := fold s.h s.r (copyInto Block.zero 0 bytes) Config.fullBlockFlag } := by
  have hoff0 : s.off.toNat = 0 := by rw [hoff]; rfl
  rw [absorb_of_fills (by omega), hoff0, copyInto_full s.buf Block.zero hlen]

/-- From an empty buffer the byte loop folds the blocks that step 2 folds and holds the bytes that step 3 copies. -/
theorem absorb_eq_foldDirect (fuel : Nat) {s : State} {bytes : List Byte} (hfuel : bytes.length ≤ fuel) (hoff : s.off = 0#4) :
    ∃ old, absorb s bytes = { s with
      h := (foldDirect fuel s.h s.r bytes).1
      buf := copyInto old 0 (foldDirect fuel s.h s.r bytes).2
      off := BitVec.ofNat 4 (foldDirect fuel s.h s.r bytes).2.length } ∧ (foldDirect fuel s.h s.r bytes).2.length < 16 := by
  induction fuel generalizing s bytes with
  | zero =>
    have hlt : bytes.length < 16 := by omega
    exact ⟨s.buf, absorb_of_lt_block hoff hlt, hlt⟩
  | succ n ih =>
    rw [foldDirect]
    by_cases hlt : bytes.length < 16
    · rw [if_pos hlt]
      exact ⟨s.buf, absorb_of_lt_block hoff hlt, hlt⟩
    · have htake : (bytes.take 16).length = 16 := by rw [List.length_take]; omega
      have hdrop : (bytes.drop 16).length ≤ n := by rw [List.length_drop]; omega
      have hcut : absorb s bytes = absorb (absorb s (bytes.take 16)) (bytes.drop 16) := by
        rw [← absorb_append, List.take_append_drop]
      rw [if_neg hlt, hcut, absorb_block hoff htake]
      exact ih hdrop rfl

/-- Steps 2 and 3 after step 1 has left an empty buffer. -/
theorem absorb_sameMessage_of_completed {s s1 : State} {bytes rest : List Byte} (hstep : completeBuffer s bytes = (s1, rest))
    (hoff : s1.off = 0#4) (hlen : rest.length ≤ bytes.length) : (absorb s1 rest).sameMessage (documentUpdate s bytes) := by
  obtain ⟨old, habsorb, hlt⟩ := absorb_eq_foldDirect bytes.length hlen hoff
  have hoff0 : s1.off.toNat = 0 := by rw [hoff]; rfl
  simp only [documentUpdate, hstep]
  rw [habsorb, hoff0, hoff, BitVec.zero_add]
  refine ⟨rfl, rfl, rfl, rfl, rfl, fun j hj => copyInto_agreeBelow _ _ _ j (hj.trans_le ?_)⟩
  exact Nat.mod_le ..

/-- Settles O22: step 1 is a run of bytes that fills the buffer or leaves room in it; after it the buffer is empty or the bytes are
used up. -/
theorem byteLoopAgreesWithTheDocumentsThreeSteps : Obligations.ByteLoopAgreesWithTheDocumentsThreeSteps := by
  intro s m
  have hlt := s.off.isLt
  by_cases hoff : s.off = 0#4
  · exact absorb_sameMessage_of_completed (if_pos hoff) hoff le_rfl
  by_cases hfills : 16 - s.off.toNat ≤ m.length
  · have hstep : completeBuffer s m = (absorb s (m.take (16 - s.off.toNat)), m.drop (16 - s.off.toNat)) := by
      rw [absorb_of_fills (by rw [List.length_take]; omega)]
      exact (if_neg hoff).trans (if_pos hfills)
    have hdone := absorb_sameMessage_of_completed hstep
      (by rw [absorb_of_fills (by rw [List.length_take]; omega)]) (by rw [List.length_drop]; omega)
    rwa [← absorb_append, List.take_append_drop] at hdone
  · have htake : m.take (16 - s.off.toNat) = m := List.take_of_length_le (by omega)
    have hstep : completeBuffer s m = (absorb s m, []) := by
      rw [absorb_of_room (by omega)]
      refine (if_neg hoff).trans ((if_neg hfills).trans ?_)
      rw [htake]
    have hdirect (fuel : Nat) (h r : Limbs) : foldDirect fuel h r [] = (h, []) := by cases fuel <;> rfl
    have hdoc : documentUpdate s m = absorb s m := by
      simp only [documentUpdate, hstep, hdirect, copyInto_nil, List.length_nil, BitVec.add_zero]
    rw [hdoc]
    exact ⟨rfl, rfl, rfl, rfl, rfl, fun _ _ => rfl⟩

/-! Chunking -/

/-- A state with other words in DIN. -/
def State.withDin (s : State) (din : Words4) : State := { s with din := din }

/-- Nothing of a message depends on DIN once its bytes are taken. -/
theorem absorb_withDin (s : State) (din : Words4) (bytes : List Byte) :
    absorb (s.withDin din) bytes = (absorb s bytes).withDin din := by
  induction bytes generalizing s with
  | nil => rfl
  | cons b bs ih =>
    have hbyte : absorbByte (s.withDin din) b = (absorbByte s b).withDin din := by
      by_cases hfills : s.off.toNat + 1 = 16
      · rw [absorbByte_of_fills hfills, absorbByte_of_fills (s := s.withDin din) hfills]; rfl
      · rw [absorbByte_of_room hfills, absorbByte_of_room (s := s.withDin din) hfills]; rfl
    rw [absorb_cons, absorb_cons, hbyte, ih]

theorem chunk_packChunk {bytes : List Byte} (h : bytes.length ≤ 16) : chunk bytes.length (Program.packChunk bytes) = bytes := by
  rw [chunk, bytesOf_packChunk h, List.take_left]

theorem feedChunk_eq {s : State} {bytes : List Byte} (hkeyed : s.lifecycle = .keyed) (h : bytes.length ≤ 16) :
    feedChunk bytes s = .next ((absorb s bytes).withDin (Program.packChunk bytes)) := by
  have hupdate := exec_of_effect (.absorbed (s := s.withDin (Program.packChunk bytes)) h hkeyed)
  have hdin : (s.withDin (Program.packChunk bytes)).din = Program.packChunk bytes := rfl
  rw [hdin, chunk_packChunk h, absorb_withDin] at hupdate
  exact hupdate

/-- Fed in chunks, a message leaves what its bytes in one run leave, but for the last chunk in DIN. -/
theorem feedChunks_eq {cs : List (List Byte)} {s : State} (hkeyed : s.lifecycle = .keyed) (hcs : ∀ x ∈ cs, x.length ≤ 16) :
    ∃ din, feedChunks cs s = .next ((absorb s cs.flatten).withDin din) := by
  induction cs generalizing s with
  | nil => exact ⟨s.din, rfl⟩
  | cons x xs ih =>
    obtain ⟨hx, hxs⟩ := List.forall_mem_cons.mp hcs
    obtain ⟨din, hrest⟩ := ih (s := (absorb s x).withDin (Program.packChunk x)) ((absorb_lifecycle s x).trans hkeyed) hxs
    refine ⟨din, ?_⟩
    simp only [feedChunks, feedChunk_eq hkeyed hx, hrest, List.flatten_cons, absorb_append, absorb_withDin]
    rfl

/-- Settles O23: both ways leave what the same bytes in one run leave. -/
theorem chunkingDoesNotChangeTheTag : Obligations.ChunkingDoesNotChangeTheTag := by
  intro s cs cs' hkeyed hcs hcs' hsame
  obtain ⟨din, hfeed⟩ := feedChunks_eq hkeyed hcs
  obtain ⟨din', hfeed'⟩ := feedChunks_eq hkeyed hcs'
  rw [hsame] at hfeed
  exact ⟨_, _, hfeed, hfeed', ⟨rfl, rfl, rfl, rfl, rfl, fun _ _ => rfl⟩, rfl⟩

/-! Stale bytes -/

theorem set_agree_of_fills {off : BitVec 4} {buf buf' : Block} (h : Block.agreeBelow off.toNat buf buf') (b : Byte) :
    Block.agreeBelow (off.toNat + 1) (buf.set off.toNat b off.isLt) (buf'.set off.toNat b off.isLt) := by
  intro j hj
  simp only [Fin.getElem_fin, Vector.getElem_set]
  split
  next => rfl
  next hne => exact h j (by omega)

theorem absorbByte_stale {s : State} {buf : Block} (h : Block.agreeBelow s.off.toNat s.buf buf) (b : Byte) :
    ∃ buf', absorbByte { s with buf := buf } b = { absorbByte s b with buf := buf' } ∧
      Block.agreeBelow (absorbByte s b).off.toNat (absorbByte s b).buf buf' := by
  have hset := set_agree_of_fills h b
  by_cases hfills : s.off.toNat + 1 = 16
  · rw [hfills] at hset
    have hblock := Block.eq_of_agreeBelow_sixteen hset
    refine ⟨buf.set s.off.toNat b s.off.isLt, ?_⟩
    rw [absorbByte_of_fills hfills, absorbByte_of_fills (s := { s with buf := buf }) hfills, hblock]
    exact ⟨rfl, fun _ _ => rfl⟩
  · refine ⟨buf.set s.off.toNat b s.off.isLt, ?_⟩
    rw [absorbByte_of_room hfills, absorbByte_of_room (s := { s with buf := buf }) hfills]
    exact ⟨rfl, by rwa [off_succ_toNat hfills]⟩

theorem absorb_stale {s : State} {buf : Block} (h : Block.agreeBelow s.off.toNat s.buf buf) (bytes : List Byte) :
    ∃ buf', absorb { s with buf := buf } bytes = { absorb s bytes with buf := buf' } ∧
      Block.agreeBelow (absorb s bytes).off.toNat (absorb s bytes).buf buf' := by
  induction bytes generalizing s buf with
  | nil => exact ⟨buf, rfl, h⟩
  | cons b bs ih =>
    obtain ⟨buf', hbyte, h'⟩ := absorbByte_stale h b
    rw [absorb_cons, absorb_cons, hbyte]
    exact ih h'

/-- The final block is made of the filled bytes alone (42_finish.md R153). -/
theorem finalBlock_stale {buf buf' : Block} {off : BitVec 4} (h : Block.agreeBelow off.toNat buf buf') :
    finalBlock buf off = finalBlock buf' off := by
  apply Vector.ext
  intro j hj
  simp only [finalBlock, Vector.getElem_ofFn]
  split
  next hlt => exact h ⟨j, hj⟩ hlt
  next => rfl

theorem tagWords_stale {s : State} {buf : Block} (h : Block.agreeBelow s.off.toNat s.buf buf) :
    { s with buf := buf }.tagWords = s.tagWords := by
  simp only [State.tagWords, tagOf, finalAccumulator, finalBlock_stale h]

/-- A command takes the same case whatever the stale bytes are, and they stay stale or are zeroed. -/
theorem Effect.stale {i : Instr} {s t : State} {buf : Block} (h : Block.agreeBelow s.off.toNat s.buf buf) (he : Effect i s t) :
    ∃ buf', Effect i { s with buf := buf } { t with buf := buf' } ∧ Block.agreeBelow t.off.toNat t.buf buf' := by
  cases he with
  | ignored hf => exact ⟨buf, .ignored hf, h⟩
  | nothing => exact ⟨buf, .nothing, h⟩
  | keySize hn hf => exact ⟨buf, .keySize hn hf, h⟩
  | loaded hf => exact ⟨Block.zero, .loaded (s := { s with buf := buf }) hf, fun _ _ => rfl⟩
  | badLen hn hf => exact ⟨Block.zero, .badLen (s := { s with buf := buf }) hn hf, fun _ _ => rfl⟩
  | notKeyed hi hl => exact ⟨Block.zero, .notKeyed (s := { s with buf := buf }) hi hl, fun _ _ => rfl⟩
  | consumed hi hl => exact ⟨Block.zero, .consumed (s := { s with buf := buf }) hi hl, fun _ _ => rfl⟩
  | forbidden hf => exact ⟨Block.zero, .forbidden (s := { s with buf := buf }) hf, fun _ _ => rfl⟩
  | absorbed hn hl =>
    obtain ⟨buf', habsorb, h'⟩ := absorb_stale h (chunk _ s.din)
    exact ⟨buf', habsorb ▸ .absorbed (s := { s with buf := buf }) hn hl, h'⟩
  | finished hl =>
    have hsame : finishMessage { s with buf := buf } = { finishMessage s with buf := Block.zero } := by
      rw [finishMessage, tagWords_stale h]
      rfl
    exact ⟨Block.zero, hsame ▸ .finished hl, fun _ _ => rfl⟩
  | verified hl =>
    have hsame : verifyMessage { s with buf := buf } = { verifyMessage s with buf := Block.zero } := by
      rw [verifyMessage, tagWords_stale h]
      rfl
    exact ⟨Block.zero, hsame ▸ .verified hl, fun _ _ => rfl⟩

/-- Settles O55: the effect of the command is the same up to stale bytes. -/
theorem staleBufferBytesNeverMatter : Obligations.StaleBufferBytesNeverMatter := by
  intro i s buf h
  obtain ⟨t, hexec, he⟩ := exec_effect i s
  obtain ⟨buf', he', h'⟩ := he.stale h
  exact ⟨t, buf', hexec, exec_of_effect he', h'⟩

end Sys2Proof.Machine
end

section
/-! PROOF. The invariant (10_state.md R28, 40_init.md R106, 60_exceptions.md R200-R205): it holds after reset, each effect of a command
keeps it, and so does each effect of a step. -/

namespace Sys2Proof.Machine

theorem Limbs.zero_accBounded : Limbs.zero.accBounded := by unfold Limbs.accBounded; decide

theorem Limbs.zero_clamped : Limbs.zero.clamped := by unfold Limbs.clamped; decide

/-- The reset values meet the invariant at any aligned BASE. -/
theorem hardwareReset_inv {s : State} (hbase : s.base % 256 = 0) : (hardwareReset s).Inv where
  accBounded := Limbs.zero_accBounded
  clamped := Limbs.zero_clamped
  lifecycleLegal := ⟨⟨rfl, rfl, rfl, rfl, rfl⟩, rfl, rfl, rfl, .inl rfl⟩
  errInfoLegal := ⟨rfl, rfl⟩
  tagOnlyWhenValid _ := rfl
  matchOnlyWhenDone _ := rfl
  baseAligned := hbase

/-- Settles O58: the reset state is its own hardware reset, and its BASE is aligned. -/
theorem resetStateMeetsTheInvariant : Obligations.ResetStateMeetsTheInvariant :=
  hardwareReset_inv (s := State.reset) rfl

/-- FATAL entry leaves nothing but the error, which has to be one of the table's (60_exceptions.md R200). -/
theorem enterFatal_inv {s : State} {code : ErrorCode} {op : Byte} {len : Nat} (hbase : s.base % 256 = 0) (hnone : code ≠ .none)
    (hkeySize : code ≠ .keySize) (herr : (enterFatal code op len s).errInfoLegal) : (enterFatal code op len s).Inv where
  accBounded := Limbs.zero_accBounded
  clamped := Limbs.zero_clamped
  lifecycleLegal := ⟨⟨rfl, rfl, rfl, rfl, rfl⟩, rfl, rfl, rfl, hnone, hkeySize⟩
  errInfoLegal := herr
  tagOnlyWhenValid _ := rfl
  matchOnlyWhenDone _ := rfl
  baseAligned := hbase

/-- The opcodes of the table's rows NOT_KEYED and CONSUMED. -/
theorem op_of_usesOpenMessage {i : Instr} (hi : usesOpenMessage i) : i.op = 0x02#8 ∨ i.op = 0x03#8 ∨ i.op = 0x04#8 := by
  cases i with
  | update => exact .inl rfl
  | finish => exact .inr (.inl rfl)
  | verify => exact .inr (.inr rfl)
  | nop | init | reset => exact hi.elim

theorem byte_toNat_of_lt {n : Nat} (hn : n < 256) : (BitVec.ofNat 8 n).toNat = n := by
  rw [BitVec.toNat_ofNat, Nat.mod_eq_of_lt hn]

/-- The refusal of INIT raises KEYERR with its code, which every state but FATAL allows. -/
theorem refuseKeySize_lifecycleLegal {n : Nat} {s : State} (h : s.lifecycleLegal) (hf : s.lifecycle ≠ .fatal) :
    (refuseKeySize n s).lifecycleLegal := by
  unfold State.lifecycleLegal at h ⊢
  rw [refuseKeySize_lifecycle]
  cases hl : s.lifecycle with
  | idle =>
    rw [hl] at h
    obtain ⟨hblank, htagV, hvDone, -, -⟩ := h
    exact ⟨hblank, htagV, hvDone, rfl, .inr rfl⟩
  | keyed =>
    rw [hl] at h
    obtain ⟨htagV, hvDone, -, -⟩ := h
    exact ⟨htagV, hvDone, rfl, .inr rfl⟩
  | finished =>
    rw [hl] at h
    obtain ⟨hblank, hflags, -, -⟩ := h
    exact ⟨hblank, hflags, rfl, .inr rfl⟩
  | fatal => exact absurd hl hf

theorem lifecycleLegal_keyed_iff {s : State} (hl : s.lifecycle = .keyed) :
    s.lifecycleLegal ↔ s.tagV = false ∧ s.vDone = false ∧ s.keyErr = (s.eCode == .keySize) ∧
      (s.eCode = .none ∨ s.eCode = .keySize) := by
  rw [State.lifecycleLegal, hl]

theorem loadKey_inv {s : State} (hbase : s.base % 256 = 0) : (loadKey s).Inv where
  accBounded := Limbs.zero_accBounded
  clamped := clampLimbs_clamped ..
  lifecycleLegal := ⟨rfl, rfl, rfl, .inl rfl⟩
  errInfoLegal := ⟨rfl, rfl⟩
  tagOnlyWhenValid _ := rfl
  matchOnlyWhenDone _ := rfl
  baseAligned := hbase

section
variable {s : State} (h : s.Inv)
include h

theorem refuseKeySize_inv {n : Nat} (hn : n ≠ 32) (hlt : n < 256) (hf : s.lifecycle ≠ .fatal) : (refuseKeySize n s).Inv where
  accBounded := h.accBounded
  clamped := h.clamped
  lifecycleLegal := refuseKeySize_lifecycleLegal h.lifecycleLegal hf
  errInfoLegal := by
    refine ⟨fun hlen => hn ?_, rfl⟩
    rw [← byte_toNat_of_lt hlt, ← refuseKeySize_eLen s n, hlen]
    rfl
  tagOnlyWhenValid := h.tagOnlyWhenValid
  matchOnlyWhenDone := h.matchOnlyWhenDone
  baseAligned := h.baseAligned

/-- 41_update.md R133: every fold of a message keeps INV. -/
theorem absorb_accBounded (bytes : List Byte) : (absorb s bytes).h.accBounded := by
  refine (absorb_keeps (fun t => t.r.clamped ∧ t.h.accBounded) ?_ s bytes ⟨h.clamped, h.accBounded⟩).2
  intro t b ⟨hr, hh⟩
  refine ⟨by rwa [absorbByte_r], ?_⟩
  unfold absorbByte
  split
  · exact foldKeepsTheAccumulatorBound t.h t.r _ _ hh hr (.inr rfl)
  · exact hh

theorem absorb_inv (bytes : List Byte) (hkeyed : s.lifecycle = .keyed) : (absorb s bytes).Inv where
  accBounded := absorb_accBounded h bytes
  clamped := by rw [absorb_r]; exact h.clamped
  lifecycleLegal := by
    rw [lifecycleLegal_keyed_iff ((absorb_lifecycle s bytes).trans hkeyed), absorb_tagV, absorb_vDone, absorb_keyErr, absorb_eCode]
    exact (lifecycleLegal_keyed_iff hkeyed).mp h.lifecycleLegal
  errInfoLegal := by
    rw [State.errInfoLegal, absorb_eCode, absorb_eLen, absorb_eOp]
    exact h.errInfoLegal
  tagOnlyWhenValid := by rw [absorb_tagV, absorb_tag]; exact h.tagOnlyWhenValid
  matchOnlyWhenDone := by rw [absorb_vDone, absorb_matched]; exact h.matchOnlyWhenDone
  baseAligned := by rw [absorb_base]; exact h.baseAligned

theorem finishMessage_inv (hkeyed : s.lifecycle = .keyed) : (finishMessage s).Inv where
  accBounded := Limbs.zero_accBounded
  clamped := Limbs.zero_clamped
  lifecycleLegal := ⟨⟨rfl, rfl, rfl, rfl, rfl⟩, rfl, ((lifecycleLegal_keyed_iff hkeyed).mp h.lifecycleLegal).2.2⟩
  errInfoLegal := h.errInfoLegal
  tagOnlyWhenValid := Bool.noConfusion
  matchOnlyWhenDone _ := rfl
  baseAligned := h.baseAligned

theorem verifyMessage_inv (hkeyed : s.lifecycle = .keyed) : (verifyMessage s).Inv where
  accBounded := Limbs.zero_accBounded
  clamped := Limbs.zero_clamped
  lifecycleLegal := ⟨⟨rfl, rfl, rfl, rfl, rfl⟩, rfl, ((lifecycleLegal_keyed_iff hkeyed).mp h.lifecycleLegal).2.2⟩
  errInfoLegal := h.errInfoLegal
  tagOnlyWhenValid _ := rfl
  matchOnlyWhenDone := Bool.noConfusion
  baseAligned := h.baseAligned

/-- A command with a LEN that fits its field keeps the invariant. -/
theorem Effect.inv {i : Instr} {t : State} (hlen : i.len < 256) (he : Effect i s t) : t.Inv := by
  have hbase := h.baseAligned
  cases he with
  | ignored | nothing => exact h
  | loaded => exact loadKey_inv hbase
  | keySize hn hf => exact refuseKeySize_inv h hn hlen hf
  | badLen hn =>
    have hlong : 16 < (BitVec.ofNat 8 _).toNat := hn.trans_eq (byte_toNat_of_lt hlen).symm
    exact enterFatal_inv hbase ErrorCode.noConfusion ErrorCode.noConfusion ⟨hlong, rfl⟩
  | notKeyed hi => exact enterFatal_inv hbase ErrorCode.noConfusion ErrorCode.noConfusion ⟨rfl, op_of_usesOpenMessage hi⟩
  | consumed hi => exact enterFatal_inv hbase ErrorCode.noConfusion ErrorCode.noConfusion ⟨rfl, op_of_usesOpenMessage hi⟩
  | absorbed _ hl => exact absorb_inv h _ hl
  | finished hl => exact finishMessage_inv h hl
  | verified hl => exact verifyMessage_inv h hl
  | forbidden => exact enterFatal_inv hbase ErrorCode.noConfusion ErrorCode.noConfusion ⟨rfl, rfl⟩

theorem illegalWord_inv (op : Byte) : (illegalWord op s).Inv := by
  by_cases hf : s.lifecycle = .fatal
  · rwa [illegalWord_of_fatal hf]
  · rw [illegalWord_of_ne hf]
    exact enterFatal_inv h.baseAligned ErrorCode.noConfusion ErrorCode.noConfusion rfl

/-- The invariant says nothing of the host's side of the bus, nor of KEY, DIN and CAND. -/
theorem served_inv (m : Nat) (rest : List HostEvent) (resp : BusResponse) (key : Vector Word 8) (din cand : Words4) :
    { s.served m rest resp with key := key, din := din, cand := cand }.Inv :=
  ⟨h.accBounded, h.clamped, h.lifecycleLegal, h.errInfoLegal, h.tagOnlyWhenValid, h.matchOnlyWhenDone, h.baseAligned⟩

theorem StepEffect.inv {t : State} (he : StepEffect s t) : t.Inv := by
  cases he with
  | idle => exact h
  | hardwareReset => exact hardwareReset_inv h.baseAligned
  | answered | keyWritten | dinWritten | candWritten => exact served_inv h ..
  | command _ hd he => exact he.inv (served_inv h _ _ _ s.key s.din s.cand) (decode_len_lt hd)
  | illegal => exact illegalWord_inv (served_inv h _ _ _ s.key s.din s.cand) _

end

/-- Settles O59: a step has one of the effects of `StepEffect`, and each keeps the invariant. -/
theorem everyStepKeepsTheInvariant : Obligations.EveryStepKeepsTheInvariant :=
  fun _ _ h hstep => (stepEffect_of_step hstep).inv h

end Sys2Proof.Machine
end
